-- ==== Sys2Proof/Word.lean ====
section
/-! DEFINITION. The word types of the Locus3D CORE (spec 00_scope.md R7): a byte is 8 bits; the cursor registers
are 9 bits wide (10_state.md R20); multi-byte fields have at most 32 bits. -/

namespace Sys2Proof

/-- A byte, `u8` (R7). -/
abbrev Byte := BitVec 8

/-- A 9-bit cursor register, `idx` or `expected_size` (R20). -/
abbrev Cursor := BitVec 9

/-- The widest field and slot value: 32 bits (R9: `FrameRead` reads 1, 2 or 4 bytes). -/
abbrev Word32 := BitVec 32

end Sys2Proof
end

