-- ==== Sys2Proof/Config.lean ====
section
/-! DEFINITION. The parameters of the block (spec 00_scope.md R6): the `CRC8_TABLE` (R41, R104; open) and the
`LAYOUT` (30_encoding.md R75), and the free values that stand for what the spec leaves unspecified at power-on
(70_reset_and_hazards.md R221). The default layout and the reference table stand in Machine/Encoding.lean and
Machine/Crc.lean. -/

namespace Sys2Proof

/-- The width of a payload field: 1, 2 or 4 bytes (R75). -/
inductive FieldWidth where
  | one
  | two
  | four
  deriving DecidableEq, Repr

/-- One field of a variant's layout: byte offset into the stored frame, width, signedness (R75). -/
structure Field where
  offset : Nat
  width  : FieldWidth
  signed : Bool
  deriving DecidableEq, Repr

/-- The `LAYOUT` parameter (R75): where each payload field of each variant stands in the stored frame. The field
names are those of R76 to R80; `orient` is the packed orientation word (R81). -/
structure Layout where
  -- Telemetry (R76)
  orient    : Field
  posX      : Field
  posY      : Field
  posZ      : Field
  velX      : Field
  velY      : Field
  velZ      : Field
  voltageMv : Field
  beacons   : Field
  status    : Field
  posErr    : Field
  -- SysStatus (R77)
  sysIdentifier     : Field
  sysConfigStatus   : Field
  sysLogStatus      : Field
  sysLoggerCapacity : Field
  sysLogSize        : Field
  -- Info (R78)
  hwId        : Field
  fwType      : Field
  fwVersion   : Field
  protoMinor  : Field
  protoMajor  : Field
  commitHash  : Field
  commitCount : Field
  -- RawAccel (R79)
  accX : Field
  accY : Field
  accZ : Field
  -- Strength (R80)
  lvl0 : Field
  lvl1 : Field
  lvl2 : Field
  lvl3 : Field
  deriving DecidableEq, Repr

/-- The parameters of one block, fixed before reset and never written (R41, R44, R223). They travel with the
state, so that a claim about every state is a claim about every table and every layout (assumption 1). -/
structure Params where
  crc8Table : Vector Byte 256
  layout    : Layout
  deriving DecidableEq, Repr

/-- The table of the producing devices. The spec gives no entry of it (R104, 91_not_in_source.md N1), so it is a
free value: nothing in Lean can evaluate it (assumption 2). -/
opaque Config.crc8Table : Vector Byte 256

/-- What `expected_size` holds before the first SIZE step: unspecified (R221; assumption 3). -/
opaque Config.resetExpectedSize : Cursor

/-- The value part of slot number `k` before its first commit: unspecified (R221; assumption 3). -/
opaque Config.resetSlotValue : Nat → Word32

end Sys2Proof
end

