-- ==== Sys2Proof/Syntax.lean ====
section
/-! DEFINITION. The instructions of the Locus3D CORE: a stored frame is an instruction, its event-type tag is its
opcode (spec 00_scope.md R1, 30_encoding.md R83). One constructor per row of opcode_table.json, with the operands of
the frame notation of 30_encoding.md R89. -/

namespace Sys2Proof

/-- The five decodable record kinds (00_scope.md R12, 10_state.md R29). -/
inductive Variant where
  | telemetry
  | sysStatus
  | info
  | rawAccel
  | strength
  deriving DecidableEq, Repr

/-- Why a frame decodes to no record (42_decoder.md R131, R137). -/
inductive Reason where
  | unrecognizedTag
  | lengthMismatch
  | shortFrame
  deriving DecidableEq, Repr

/-- One frame, as an instruction. `extra` holds the payload bytes behind the last field of a variant that is not
length-gated (R85, R132, R134, R135: they are ignored). The SysStatus operands and the first five Info operands are as wide
as the widest field `LAYOUT` may give them (R77, R78); WellFormed says that each fits the width `LAYOUT` does give. -/
inductive Instr where
  /-- TELEMETRY, tag 0x02 (R76, R132). -/
  | telemetry (addr : Byte) (orient posX posY posZ : Word32) (velX velY velZ voltageMv : BitVec 16)
      (beacons status posErr : Byte) (extra : List Byte)
  /-- SYSSTATUS, tag 0x08, stored length 16 (R77, R133). -/
  | sysStatus (addr : Byte) (identifier configStatus logStatus loggerCapacity logSize : Word32)
  /-- INFO, tag 0x18 (R78, R134). -/
  | info (addr : Byte) (hwId fwType fwVersion protoMinor protoMajor commitHash : Word32)
      (commitCount : BitVec 16) (extra : List Byte)
  /-- RAWACCEL, tag 0x1D (R79, R135). -/
  | rawAccel (addr : Byte) (accX accY accZ : BitVec 16) (extra : List Byte)
  /-- STRENGTH, tag 0x33, stored length 12 (R80, R136). -/
  | strength (addr : Byte) (lvl0 lvl1 lvl2 lvl3 : BitVec 16)
  /-- UNRECOGNIZED, every other frame (R85, R137). -/
  | unrecognized (why : Reason) (addr tag : Byte) (payload : List Byte)
  deriving DecidableEq, Repr

end Sys2Proof
end

