-- ==== Sys2Proof/Machine/Encoding.lean ====
section
/-! DEFINITION. The encoding tables (spec 30_encoding.md): start marker, tags, length gates, the default `LAYOUT`
(R76 to R80) and what a layout must satisfy (R75), and the dispatch on tag and length (R83, R131). Shared by
WellFormed.lean, Decode.lean and the machine. -/

namespace Sys2Proof

/-- `START_MARKER` (R6). -/
def startMarker : Byte := 0xFE#8

/-- The stored bytes before the payload: marker, size, address, tag (R6, R70). -/
def headerLen : Nat := 4

/-- `BUF_CAPACITY` (R6, R22). -/
def bufCapacity : Nat := 260

/-- The largest payload, N = 255 (R70). -/
def maxPayload : Nat := 255

/-- The tag of each variant (R83). -/
def Variant.tag : Variant → Byte
  | .telemetry => 0x02#8
  | .sysStatus => 0x08#8
  | .info      => 0x18#8
  | .rawAccel  => 0x1D#8
  | .strength  => 0x33#8

/-- The exact stored length of SysStatus, `SYSSTATUS_LEN` (R6, R86). -/
def sysStatusLen : Nat := 16

/-- The exact stored length of Strength, `STRENGTH_LEN` (R6, R86). -/
def strengthLen : Nat := 12

/-- The width in bytes (R75). -/
def FieldWidth.bytes : FieldWidth → Nat
  | .one  => 1
  | .two  => 2
  | .four => 4

/-- The first offset behind a field. -/
def Field.next (f : Field) : Nat := f.offset + f.width.bytes

/-- Two fields share no byte. -/
def Field.disjoint (f g : Field) : Bool := decide (f.next ≤ g.offset) || decide (g.next ≤ f.offset)

namespace Layout

/-- The fields of each variant, in the order of the source's table (R75, R76 to R80). -/
def fields (L : Layout) : Variant → List Field
  | .telemetry => [L.orient, L.posX, L.posY, L.posZ, L.velX, L.velY, L.velZ, L.voltageMv, L.beacons, L.status, L.posErr]
  | .sysStatus => [L.sysIdentifier, L.sysConfigStatus, L.sysLogStatus, L.sysLoggerCapacity, L.sysLogSize]
  | .info      => [L.hwId, L.fwType, L.fwVersion, L.protoMinor, L.protoMajor, L.commitHash, L.commitCount]
  | .rawAccel  => [L.accX, L.accY, L.accZ]
  | .strength  => [L.lvl0, L.lvl1, L.lvl2, L.lvl3]

/-- The largest `offset + width` of a list of fields. -/
def reach : List Field → Nat
  | []      => 0
  | f :: fs => max f.next (reach fs)

/-- `min_len(v)` (R75). -/
def minLen (L : Layout) (v : Variant) : Nat := reach (L.fields v)

/-- Every offset is in the payload and no two fields overlap (R75). -/
def fieldsOk : List Field → Bool
  | []      => true
  | f :: fs => decide (headerLen ≤ f.offset) && fs.all f.disjoint && fieldsOk fs

/-- A field has the given width and signedness. -/
def shaped (w : FieldWidth) (sgn : Bool) (f : Field) : Bool := decide (f.width = w) && decide (f.signed = sgn)

/-- What R75 asks of a layout, with the widths and signs the source gives (R76 to R80): offsets in the payload, no
overlap, the gated variants' fields inside the gate length, and every width and sign that the source fixes. The widths of the
SysStatus fields and of the first five Info fields are free; all of them are unsigned (R133, R134). -/
def wf (L : Layout) : Bool :=
  fieldsOk (L.fields .telemetry) && fieldsOk (L.fields .sysStatus) && fieldsOk (L.fields .info) &&
  fieldsOk (L.fields .rawAccel) && fieldsOk (L.fields .strength) &&
  decide (L.minLen .sysStatus ≤ sysStatusLen) && decide (L.minLen .strength ≤ strengthLen) &&
  [L.orient].all (shaped .four false) &&
  [L.posX, L.posY, L.posZ].all (shaped .four true) &&
  [L.velX, L.velY, L.velZ].all (shaped .two true) &&
  shaped .two false L.voltageMv &&
  [L.beacons, L.status, L.posErr].all (shaped .one false) &&
  (L.fields .sysStatus).all (fun f => !f.signed) &&
  [L.hwId, L.fwType, L.fwVersion, L.protoMinor, L.protoMajor].all (fun f => !f.signed) &&
  shaped .four false L.commitHash && shaped .two false L.commitCount &&
  (L.fields .rawAccel).all (shaped .two true) && (L.fields .strength).all (shaped .two true)

end Layout

/-- The default `LAYOUT` (R75 to R80; decisions D6, D7): contiguous from offset 4, in the order of the source's table. -/
def Layout.default : Layout where
  orient    := ⟨4, .four, false⟩
  posX      := ⟨8, .four, true⟩
  posY      := ⟨12, .four, true⟩
  posZ      := ⟨16, .four, true⟩
  velX      := ⟨20, .two, true⟩
  velY      := ⟨22, .two, true⟩
  velZ      := ⟨24, .two, true⟩
  voltageMv := ⟨26, .two, false⟩
  beacons   := ⟨28, .one, false⟩
  status    := ⟨29, .one, false⟩
  posErr    := ⟨30, .one, false⟩
  sysIdentifier     := ⟨4, .four, false⟩
  sysConfigStatus   := ⟨8, .one, false⟩
  sysLogStatus      := ⟨9, .one, false⟩
  sysLoggerCapacity := ⟨10, .two, false⟩
  sysLogSize        := ⟨12, .four, false⟩
  hwId        := ⟨4, .one, false⟩
  fwType      := ⟨5, .one, false⟩
  fwVersion   := ⟨6, .one, false⟩
  protoMinor  := ⟨7, .one, false⟩
  protoMajor  := ⟨8, .one, false⟩
  commitHash  := ⟨9, .four, false⟩
  commitCount := ⟨13, .two, false⟩
  accX := ⟨4, .two, true⟩
  accY := ⟨6, .two, true⟩
  accZ := ⟨8, .two, true⟩
  lvl0 := ⟨4, .two, true⟩
  lvl1 := ⟨6, .two, true⟩
  lvl2 := ⟨8, .two, true⟩
  lvl3 := ⟨10, .two, true⟩

/-- A length condition that either selects the variant or gives the reason (R83). -/
def gate (ok : Bool) (v : Variant) (why : Reason) : Except Reason Variant := if ok then .ok v else .error why

/-- Dispatch on the whole tag byte, then on the stored length (R83, R131): the variant, or why there is none. -/
def selectVariant (L : Layout) (tag : Byte) (len : Nat) : Except Reason Variant :=
  if tag = Variant.telemetry.tag then gate (decide (L.minLen .telemetry ≤ len)) .telemetry .shortFrame
  else if tag = Variant.sysStatus.tag then gate (decide (len = sysStatusLen)) .sysStatus .lengthMismatch
  else if tag = Variant.info.tag then gate (decide (L.minLen .info ≤ len)) .info .shortFrame
  else if tag = Variant.rawAccel.tag then gate (decide (L.minLen .rawAccel ≤ len)) .rawAccel .shortFrame
  else if tag = Variant.strength.tag then gate (decide (len = strengthLen)) .strength .lengthMismatch
  else .error .unrecognizedTag

end Sys2Proof
end

