-- ==== Sys2Proof/WellFormed.lean ====
section
/-! DEFINITION. When an instruction is a frame that the wire format can carry (spec 30_encoding.md R70, R72, R75, R83):
the payload has at most 255 bytes, a value fits the field `LAYOUT` gives it, and UNRECOGNIZED is what no other row takes. -/

namespace Sys2Proof

/-- The value fits an unsigned field of this width. -/
def Field.fits (f : Field) (v : Word32) : Bool := decide (v.toNat < 256 ^ f.width.bytes)

/-- The stored frame of an ungated variant with `extra` trailing bytes has at most 255 payload bytes (R70, R72). -/
def Layout.roomFor (L : Layout) (v : Variant) (extra : List Byte) : Bool :=
  decide (L.minLen v + extra.length ≤ headerLen + maxPayload)

/-- The instruction is one the encoding admits, under the layout `L`. -/
def Instr.wf (L : Layout) : Instr → Bool
  | .telemetry _ _ _ _ _ _ _ _ _ _ _ _ extra => L.roomFor .telemetry extra
  | .sysStatus _ ident cfg log cap size =>
      L.sysIdentifier.fits ident && L.sysConfigStatus.fits cfg && L.sysLogStatus.fits log &&
      L.sysLoggerCapacity.fits cap && L.sysLogSize.fits size
  | .info _ hw fwt fwv pmin pmaj _ _ extra =>
      L.hwId.fits hw && L.fwType.fits fwt && L.fwVersion.fits fwv && L.protoMinor.fits pmin &&
      L.protoMajor.fits pmaj && L.roomFor .info extra
  | .rawAccel _ _ _ _ extra => L.roomFor .rawAccel extra
  | .strength _ _ _ _ _ => true
  | .unrecognized why _ tag payload =>
      decide (payload.length ≤ maxPayload) &&
      (match selectVariant L tag (headerLen + payload.length) with
       | .error r => decide (r = why)
       | .ok _    => false)

end Sys2Proof
end

