-- ==== Sys2Proof/Decode.lean ====
section
/-! DEFINITION. The Packet Decoder's reading of a stored frame (spec 42_decoder.md R131 to R137, 30_encoding.md R81 to R85),
total on any bytes and rejecting by name; behind it the encoder, written from the same tables; and the opcode table's rows
(30_encoding.md R84, R90). -/

namespace Sys2Proof

/-- Why some bytes are no stored frame that the decoder reads. -/
inductive DecodeError where
  /-- Fewer than four bytes: outside the operand of `decode` (R131: `len(F) >= 4`). -/
  | headerMissing
  /-- Byte 0 is not the start marker (R70); raised by `decode` only. -/
  | noStartMarker
  /-- The length is not N + 4 (R72); raised by `decode` only. -/
  | lengthDisagrees
  /-- `LAYOUT` puts a field outside the frame, against R75; raised under no well-formed layout. -/
  | fieldOutsideFrame
  deriving DecidableEq, Repr

/-- `FrameRead(F, a, n)`: the unsigned little-endian value of `n` bytes at offset `a` (R9, R52). -/
def frameRead (F : List Byte) (a : Nat) : Nat → Option Nat
  | 0     => some 0
  | n + 1 =>
    match F[a]?, frameRead F (a + 1) n with
    | some b, some hi => some (b.toNat + 256 * hi)
    | _, _            => none

/-- `sext_(8n)` or `zext_(8n)` of a field's unsigned value, as 32 bits (R9, R82). -/
def Field.extend (f : Field) (v : Nat) : Word32 :=
  if f.signed then (BitVec.ofNat (8 * f.width.bytes) v).signExtend 32 else BitVec.ofNat 32 v

/-- The value of a field of the frame (R82). -/
def Field.get (f : Field) (F : List Byte) : Except DecodeError Word32 :=
  match frameRead F f.offset f.width.bytes with
  | some v => .ok (f.extend v)
  | none   => .error .fieldOutsideFrame

/-- `Telemetry(...)` of R132; the three angles stay packed in `orient` (Machine/Operands.lean unpacks them). -/
def decodeTelemetry (L : Layout) (addr : Byte) (F : List Byte) : Except DecodeError Instr := do
  let o ← L.orient.get F
  let x ← L.posX.get F
  let y ← L.posY.get F
  let z ← L.posZ.get F
  let vx ← L.velX.get F
  let vy ← L.velY.get F
  let vz ← L.velZ.get F
  let mv ← L.voltageMv.get F
  let bc ← L.beacons.get F
  let st ← L.status.get F
  let pe ← L.posErr.get F
  .ok (.telemetry addr o x y z (vx.setWidth 16) (vy.setWidth 16) (vz.setWidth 16) (mv.setWidth 16)
    (bc.setWidth 8) (st.setWidth 8) (pe.setWidth 8) (F.drop (L.minLen .telemetry)))

/-- `SysStatus(...)` of R133. -/
def decodeSysStatus (L : Layout) (addr : Byte) (F : List Byte) : Except DecodeError Instr := do
  let ident ← L.sysIdentifier.get F
  let cfg ← L.sysConfigStatus.get F
  let log ← L.sysLogStatus.get F
  let cap ← L.sysLoggerCapacity.get F
  let size ← L.sysLogSize.get F
  .ok (.sysStatus addr ident cfg log cap size)

/-- `Info(...)` of R134. -/
def decodeInfo (L : Layout) (addr : Byte) (F : List Byte) : Except DecodeError Instr := do
  let hw ← L.hwId.get F
  let fwt ← L.fwType.get F
  let fwv ← L.fwVersion.get F
  let pmin ← L.protoMinor.get F
  let pmaj ← L.protoMajor.get F
  let hash ← L.commitHash.get F
  let cnt ← L.commitCount.get F
  .ok (.info addr hw fwt fwv pmin pmaj hash (cnt.setWidth 16) (F.drop (L.minLen .info)))

/-- `RawAccel(...)` of R135. -/
def decodeRawAccel (L : Layout) (addr : Byte) (F : List Byte) : Except DecodeError Instr := do
  let x ← L.accX.get F
  let y ← L.accY.get F
  let z ← L.accZ.get F
  .ok (.rawAccel addr (x.setWidth 16) (y.setWidth 16) (z.setWidth 16) (F.drop (L.minLen .rawAccel)))

/-- `Strength(...)` of R136. -/
def decodeStrength (L : Layout) (addr : Byte) (F : List Byte) : Except DecodeError Instr := do
  let l0 ← L.lvl0.get F
  let l1 ← L.lvl1.get F
  let l2 ← L.lvl2.get F
  let l3 ← L.lvl3.get F
  .ok (.strength addr (l0.setWidth 16) (l1.setWidth 16) (l2.setWidth 16) (l3.setWidth 16))

/-- The record of each variant (R132 to R136). -/
def decodeVariant (L : Layout) (addr : Byte) (F : List Byte) : Variant → Except DecodeError Instr
  | .telemetry => decodeTelemetry L addr F
  | .sysStatus => decodeSysStatus L addr F
  | .info      => decodeInfo L addr F
  | .rawAccel  => decodeRawAccel L addr F
  | .strength  => decodeStrength L addr F

/-- `decode(F)` of R131: dispatch on `F[3]`, then on `len(F)`. The marker and the size byte take no part. -/
def decodeFrame (L : Layout) (F : List Byte) : Except DecodeError Instr :=
  match F with
  | _ :: _ :: addr :: tag :: payload =>
    match selectVariant L tag F.length with
    | .ok v      => decodeVariant L addr F v
    | .error why => .ok (.unrecognized why addr tag payload)
  | _ => .error .headerMissing

/-- The stored frame read from any bytes: it begins with the marker and has N + 4 bytes (R70, R72), and `decode` of R131
gives the rest. -/
def decode (L : Layout) (bs : List Byte) : Except DecodeError Instr :=
  match bs with
  | m :: n :: _ :: _ :: payload =>
    if m ≠ startMarker then .error .noStartMarker
    else if payload.length ≠ n.toNat then .error .lengthDisagrees
    else decodeFrame L bs
  | _ => .error .headerMissing

/-- The `n` low bytes of a number, least significant first (R52). -/
def bytesLE : Nat → Nat → List Byte
  | 0, _     => []
  | n + 1, w => BitVec.ofNat 8 w :: bytesLE n (w / 256)

/-- The stored frame that a table word stands for: the header word's bytes in wire order (R71), the rest of the N + 4 bytes
zero. -/
def tableBytes (nbits w : Nat) : List Byte :=
  let h := w % 2 ^ nbits
  bytesLE (headerLen + h / 256 % 256) h

/-- The instruction the decoder reads from a row's word, bit 0 the least significant bit of the first byte (R71, R90), under
the default layout. -/
def decodeTableWord (nbits w : Nat) : Option Instr :=
  match decode Layout.default (tableBytes nbits w) with
  | .ok i    => some i
  | .error _ => none

/-! ### The encoder -/

/-- Put bytes into a frame from offset `a` on. -/
def putBytes (F : List Byte) (a : Nat) : List Byte → List Byte
  | []      => F
  | b :: bs => putBytes (F.set a b) (a + 1) bs

/-- Put a value into its field, little-endian, in two's complement (R52, R89). -/
def Field.put (f : Field) (v : Word32) (F : List Byte) : List Byte :=
  putBytes F f.offset (bytesLE f.width.bytes v.toNat)

/-- Put each value into its field. -/
def putFields : List (Field × Word32) → List Byte → List Byte
  | [], F            => F
  | (f, v) :: fvs, F => putFields fvs (f.put v F)

/-- A stored frame of `len` bytes before `extra`: header, then the fields' values, every other byte zero; N counts the payload
(R70, R89). -/
def frameWith (tag addr : Byte) (len : Nat) (fvs : List (Field × Word32)) (extra : List Byte) : List Byte :=
  putFields fvs
    (startMarker :: BitVec.ofNat 8 (len - headerLen + extra.length) :: addr :: tag ::
      List.replicate (len - headerLen) 0#8) ++ extra

/-- The stored frame of an instruction (R70, R76 to R80, R89). -/
def encode (L : Layout) : Instr → List Byte
  | .telemetry addr o x y z vx vy vz mv bc st pe extra =>
      frameWith Variant.telemetry.tag addr (L.minLen .telemetry)
        [(L.orient, o), (L.posX, x), (L.posY, y), (L.posZ, z), (L.velX, vx.signExtend 32), (L.velY, vy.signExtend 32),
         (L.velZ, vz.signExtend 32), (L.voltageMv, mv.setWidth 32), (L.beacons, bc.setWidth 32), (L.status, st.setWidth 32),
         (L.posErr, pe.setWidth 32)] extra
  | .sysStatus addr ident cfg log cap size =>
      frameWith Variant.sysStatus.tag addr sysStatusLen
        [(L.sysIdentifier, ident), (L.sysConfigStatus, cfg), (L.sysLogStatus, log), (L.sysLoggerCapacity, cap),
         (L.sysLogSize, size)] []
  | .info addr hw fwt fwv pmin pmaj hash cnt extra =>
      frameWith Variant.info.tag addr (L.minLen .info)
        [(L.hwId, hw), (L.fwType, fwt), (L.fwVersion, fwv), (L.protoMinor, pmin), (L.protoMajor, pmaj), (L.commitHash, hash),
         (L.commitCount, cnt.setWidth 32)] extra
  | .rawAccel addr x y z extra =>
      frameWith Variant.rawAccel.tag addr (L.minLen .rawAccel)
        [(L.accX, x.signExtend 32), (L.accY, y.signExtend 32), (L.accZ, z.signExtend 32)] extra
  | .strength addr l0 l1 l2 l3 =>
      frameWith Variant.strength.tag addr strengthLen
        [(L.lvl0, l0.signExtend 32), (L.lvl1, l1.signExtend 32), (L.lvl2, l2.signExtend 32), (L.lvl3, l3.signExtend 32)] []
  | .unrecognized _ addr tag payload =>
      startMarker :: BitVec.ofNat 8 payload.length :: addr :: tag :: payload

/-! ### The opcode table's own selection -/

/-- A row of opcode_table.json: `match` and `mask` on the header word, and the minimum N as a side condition (R84, R90);
`none` is the UNRECOGNIZED row. -/
structure OpcodeRow where
  variant : Option Variant
  pattern : Word32
  mask    : Word32
  nMin    : Nat
  deriving DecidableEq, Repr

/-- The six rows, in table order (opcode_table.json; R84). -/
def opcodeRows : List OpcodeRow :=
  [⟨some .telemetry, 0x020000FE#32, 0xFF0000FF#32, 27⟩,
   ⟨some .sysStatus, 0x08000CFE#32, 0xFF00FFFF#32, 0⟩,
   ⟨some .info,      0x180000FE#32, 0xFF0000FF#32, 11⟩,
   ⟨some .rawAccel,  0x1D0000FE#32, 0xFF0000FF#32, 6⟩,
   ⟨some .strength,  0x330008FE#32, 0xFF00FFFF#32, 0⟩,
   ⟨none,            0x000000FE#32, 0x000000FF#32, 0⟩]

/-- The header word `H = F[0] | F[1] << 8 | F[2] << 16 | F[3] << 24` (R71). -/
def headerWord (marker n addr tag : Byte) : Word32 := tag ++ addr ++ n ++ marker

/-- The first row whose `match`/`mask` and minimum N hold (R90). -/
def selectRow (h : Word32) : List OpcodeRow → Option OpcodeRow
  | []      => none
  | r :: rs => if h &&& r.mask = r.pattern ∧ r.nMin ≤ ((h >>> 8).setWidth 8).toNat then some r else selectRow h rs

end Sys2Proof
end

