-- ==== Sys2Proof/Machine/Crc.lean ====
section
/-! DEFINITION. The CRC8 Engine (spec 40_crc8.md R100), the reference table T07 of R106 for executable tests, and the wire
frame of an instruction (30_encoding.md R70, R73). -/

namespace Sys2Proof.Machine

/-- `T[x]`: the index is a byte, so it is always in range (R100). -/
def tableAt (T : Vector Byte 256) (x : Byte) : Byte := T.get x.toFin

/-- One byte of the CRC: `crc <- T[crc xor b]` (R100). -/
def crcByte (T : Vector Byte 256) (crc b : Byte) : Byte := tableAt T (crc ^^^ b)

/-- `crc8(s)` (R100): from 0, in index order, with no final XOR. -/
def crc8 (T : Vector Byte 256) (s : List Byte) : Byte := s.foldl (crcByte T) 0#8

/-- One of the eight steps of `T07[i]` (R106). -/
def t07Shift (c : Byte) : Byte := if c.getLsbD 7 then (c <<< 1) ^^^ 0x07#8 else c <<< 1

/-- `T07[i]` (R106). -/
def t07Entry (i : Byte) : Byte :=
  t07Shift (t07Shift (t07Shift (t07Shift (t07Shift (t07Shift (t07Shift (t07Shift i)))))))

/-- The reference table of R106, for executable tests and `withFetchWord` only: no claim that a device uses it. -/
def t07 : Vector Byte 256 := ⟨((List.range 256).map fun i => t07Entry (BitVec.ofNat 8 i)).toArray, by simp⟩

/-- The wire frame: the stored frame, then the CRC of its bytes from index 1 on (R70, R73). -/
def wireFrame (T : Vector Byte 256) (F : List Byte) : List Byte := F ++ [crc8 T (F.drop 1)]

/-- The bytes on the wire of an instruction. -/
def encodeWire (T : Vector Byte 256) (L : Layout) (i : Instr) : List Byte := wireFrame T (encode L i)

end Sys2Proof.Machine
end

