-- ==== Sys2Proof/Machine/State.lean ====
section
/-! DEFINITION. The state of the Locus3D CORE as plain data (spec 10_state.md R20): the synchronizer cursor, the frame
buffer, the Telemetry State Store, `fresh`, `stopped`, the parameters, and the model's own fields: the queue of what the
outside world does, the free interleaving of the commit in progress, and the outputs of the step just taken. -/

namespace Sys2Proof.Machine

/-- The slots of the Telemetry State Store (R29). -/
inductive SlotName where
  | address | rollMrad | pitchMrad | yawMrad | posX | posY | posZ | velX | velY | velZ | voltageMv | beacons | status | posErr
  | sysIdentifier | sysConfigStatus | sysLogStatus | sysLoggerCapacity | sysLogSize
  | hwId | fwType | fwVersion | protoMinor | protoMajor | commitHash | commitCount
  | accX | accY | accZ
  | lvl0 | lvl1 | lvl2 | lvl3
  deriving DecidableEq, Repr

/-- A slot: valid bit and value (R30). The value of an invalid slot is unspecified and no accessor returns it. -/
structure Slot (w : Nat) where
  valid : Bool
  value : BitVec w
  deriving DecidableEq, Repr

/-- The Telemetry State Store (R29), each slot with the width of R20. The widths of the SysStatus slots and of the first five
Info slots are `LAYOUT`'s (R20, R34, R35), at most 32 bits: each such slot holds the zero-extended value. -/
structure Store where
  address   : Slot 8
  rollMrad  : Slot 13
  pitchMrad : Slot 12
  yawMrad   : Slot 16
  posX      : Slot 32
  posY      : Slot 32
  posZ      : Slot 32
  velX      : Slot 16
  velY      : Slot 16
  velZ      : Slot 16
  voltageMv : Slot 16
  beacons   : Slot 8
  status    : Slot 8
  posErr    : Slot 8
  sysIdentifier     : Slot 32
  sysConfigStatus   : Slot 32
  sysLogStatus      : Slot 32
  sysLoggerCapacity : Slot 32
  sysLogSize        : Slot 32
  hwId        : Slot 32
  fwType      : Slot 32
  fwVersion   : Slot 32
  protoMinor  : Slot 32
  protoMajor  : Slot 32
  commitHash  : Slot 32
  commitCount : Slot 16
  accX : Slot 16
  accY : Slot 16
  accZ : Slot 16
  lvl0 : Slot 16
  lvl1 : Slot 16
  lvl2 : Slot 16
  lvl3 : Slot 16
  deriving DecidableEq, Repr

/-- The frame buffer `buf[0..259]` (R22), as cells in one canonical form: addresses strictly rising, each below 260
(`Memory.wf`). An unlisted index holds no value: no step since power-on has written it (R221; assumption 4). -/
abbrev Memory := List Host.Cell

/-- What a consumer does (43_store_host.md R166, R167). -/
inductive ConsumerOp where
  | takeIfFresh
  | read (slot : SlotName)
  deriving DecidableEq, Repr

/-- What happens next while a commit is in progress (R58, R160 to R164): the slot write at position `k` among those still to
be done, or a consumer operation. A position with no write is passed over. -/
inductive SchedItem where
  | write (k : Nat)
  | consumer (op : ConsumerOp)
  deriving DecidableEq, Repr

/-- What the outside world does to the block (R10, R11): the environment offers a byte, together with the interleaving of that
byte's step with consumer operations; or resets, restarts, stops; or a consumer acts between two steps. -/
inductive Input where
  | byte (b : Byte) (during : List SchedItem)
  | reset
  | syncRestart
  | stop
  | consumer (op : ConsumerOp)
  deriving DecidableEq, Repr

/-- The events of a step (60_exceptions.md R191). -/
inductive Event where
  | frame (F : List Byte)
  | crcMismatch (addr : Byte) (size : Cursor)
  | record (v : Variant)
  | unrecognizedTag (tag : Byte) (len : Nat)
  | lengthMismatch (tag : Byte) (len : Nat)
  | shortFrame (tag : Byte) (len : Nat)
  deriving DecidableEq, Repr

/-- What a consumer operation answers (R166, R167): whether it took a notification; or the slot's number, `none` while the
slot is invalid. -/
inductive Reply where
  | took (r : Bool)
  | value (slot : SlotName) (x : Option Int)
  deriving DecidableEq, Repr

/-- The four synchronizer states (R24). -/
inductive Phase where
  | seek
  | size
  | fill
  | check
  deriving DecidableEq, Repr

/-- The state of the block. -/
structure State where
  /-- The cursor: bytes accumulated into the current candidate (R21). -/
  idx : Cursor
  /-- N + 4 of the current candidate (R23). -/
  expectedSize : Cursor
  /-- The frame buffer (R22). -/
  buf : Memory
  /-- The slots (R28 to R36). -/
  store : Store
  /-- The fresh-telemetry flag (R37). -/
  fresh : Bool
  /-- A STOP was requested (R39). -/
  stopped : Bool
  /-- `CRC8_TABLE` and `LAYOUT`, never written (R41, R44). -/
  params : Params
  /-- The model's own: what the outside world does, in order (R10, R11). -/
  inputs : List Input
  /-- The model's own: the free interleaving of the step in progress (R58; 93_implementation_defined.md U5). -/
  sched : List SchedItem
  /-- The model's own: the events of the step just taken, in order (R190). -/
  events : List Event
  /-- The model's own: what consumer operations of the step just taken answered, in order (R166, R167). -/
  replies : List Reply
  deriving DecidableEq, Repr

/-- Why the machine stops. The spec's block cannot fault (R197): each of these needs a state that no run from reset reaches,
and the statement `EveryStepSucceedsUnderTheInvariant` says so. -/
inductive Fault where
  /-- Raised by CHECK when the candidate has a byte that nothing has written; safe. -/
  | bufferNotWritten
  /-- Raised by FILL when `idx` is 260 or more, outside the buffer; safe. -/
  | bufferIndexOutside
  /-- Raised by CHECK when `expected_size` is below 4, so that the frame has no tag (outside the operand of R131); safe. -/
  | frameWithoutHeader
  deriving DecidableEq, Repr

/-- Why the model gives no meaning. -/
inductive Refusal where
  /-- Raised by an arm of `exec` for an instruction not modelled; safe. No arm is left that raises it. -/
  | notModelled (mnemonic : String)
  /-- Raised by CHECK when `LAYOUT` puts a field outside the frame it is read from, against R75; safe. -/
  | layoutOutsideFrame
  deriving DecidableEq, Repr

/-- An invalid slot; its value part is the free value number `k` (R221). -/
def Slot.unwritten (w k : Nat) : Slot w := ⟨false, (Config.resetSlotValue k).setWidth w⟩

/-- The store before any commit: every valid bit 0 (R221). -/
def Store.empty : Store where
  address   := .unwritten 8 0
  rollMrad  := .unwritten 13 1
  pitchMrad := .unwritten 12 2
  yawMrad   := .unwritten 16 3
  posX      := .unwritten 32 4
  posY      := .unwritten 32 5
  posZ      := .unwritten 32 6
  velX      := .unwritten 16 7
  velY      := .unwritten 16 8
  velZ      := .unwritten 16 9
  voltageMv := .unwritten 16 10
  beacons   := .unwritten 8 11
  status    := .unwritten 8 12
  posErr    := .unwritten 8 13
  sysIdentifier     := .unwritten 32 14
  sysConfigStatus   := .unwritten 32 15
  sysLogStatus      := .unwritten 32 16
  sysLoggerCapacity := .unwritten 32 17
  sysLogSize        := .unwritten 32 18
  hwId        := .unwritten 32 19
  fwType      := .unwritten 32 20
  fwVersion   := .unwritten 32 21
  protoMinor  := .unwritten 32 22
  protoMajor  := .unwritten 32 23
  commitHash  := .unwritten 32 24
  commitCount := .unwritten 16 25
  accX := .unwritten 16 26
  accY := .unwritten 16 27
  accZ := .unwritten 16 28
  lvl0 := .unwritten 16 29
  lvl1 := .unwritten 16 30
  lvl2 := .unwritten 16 31
  lvl3 := .unwritten 16 32

/-- The state right after power-on RESET (70_reset_and_hazards.md R220, R221): SEEK, every slot invalid, `fresh` and `stopped`
0, no buffer byte written, the rest unspecified; nothing offered yet. -/
def State.reset : State where
  idx := 0
  expectedSize := Config.resetExpectedSize
  buf := []
  store := Store.empty
  fresh := false
  stopped := false
  params := ⟨Config.crc8Table, Layout.default⟩
  inputs := []
  sched := []
  events := []
  replies := []

end Sys2Proof.Machine
end

