-- ==== Sys2Proof/Machine/Flags.lean ====
section
/-! DEFINITION. The single-bit state (spec 10_state.md R38): the valid bit of each slot (R30), `fresh` (R37) and `stopped`
(R39). The block has no condition codes. -/

namespace Sys2Proof.Machine

/-- `fresh <- 1` (R160). -/
def State.setFresh (s : State) : State := { s with fresh := true }

/-- `fresh <- 0` (R166). -/
def State.clearFresh (s : State) : State := { s with fresh := false }

/-- `stopped <- 1` (R175). -/
def State.setStopped (s : State) : State := { s with stopped := true }

/-- Clear a valid bit; the value stays (R220). -/
def Slot.invalidate {w : Nat} (x : Slot w) : Slot w := { x with valid := false }

/-- `slot <- some(v)`: valid bit and value replaced together (R9, R30). The value is `v` at the slot's width. -/
def Slot.put {w : Nat} (_ : Slot w) (v : Word32) : Slot w := ⟨true, v.setWidth w⟩

/-- Valid bit, and value widened to 32 bits. -/
def Slot.view {w : Nat} (x : Slot w) : Bool × Word32 := (x.valid, x.value.setWidth 32)

/-- `for every slot: slot.valid <- 0` (R220). -/
def Store.invalidate (st : Store) : Store where
  address   := st.address.invalidate
  rollMrad  := st.rollMrad.invalidate
  pitchMrad := st.pitchMrad.invalidate
  yawMrad   := st.yawMrad.invalidate
  posX      := st.posX.invalidate
  posY      := st.posY.invalidate
  posZ      := st.posZ.invalidate
  velX      := st.velX.invalidate
  velY      := st.velY.invalidate
  velZ      := st.velZ.invalidate
  voltageMv := st.voltageMv.invalidate
  beacons   := st.beacons.invalidate
  status    := st.status.invalidate
  posErr    := st.posErr.invalidate
  sysIdentifier     := st.sysIdentifier.invalidate
  sysConfigStatus   := st.sysConfigStatus.invalidate
  sysLogStatus      := st.sysLogStatus.invalidate
  sysLoggerCapacity := st.sysLoggerCapacity.invalidate
  sysLogSize        := st.sysLogSize.invalidate
  hwId        := st.hwId.invalidate
  fwType      := st.fwType.invalidate
  fwVersion   := st.fwVersion.invalidate
  protoMinor  := st.protoMinor.invalidate
  protoMajor  := st.protoMajor.invalidate
  commitHash  := st.commitHash.invalidate
  commitCount := st.commitCount.invalidate
  accX := st.accX.invalidate
  accY := st.accY.invalidate
  accZ := st.accZ.invalidate
  lvl0 := st.lvl0.invalidate
  lvl1 := st.lvl1.invalidate
  lvl2 := st.lvl2.invalidate
  lvl3 := st.lvl3.invalidate

end Sys2Proof.Machine
end

