-- ==== Sys2Proof/Machine/Ops.lean ====
section
/-! DEFINITION. The shared operations: the frame buffer (spec 10_state.md R22, 20_memory.md R51, R56), the slots of the store
(R29, R30, R167), the event output (60_exceptions.md R190), the consumer's operations (43_store_host.md R166, R167) and the
commit with its interleavings (R58, R61, R160 to R164). The block has no exception entry and no return (R200, R202): the one
thing raised is an event. -/

namespace Sys2Proof.Machine

/-! ### The frame buffer -/

/-- The byte at an index, `none` where nothing has written it. -/
def Memory.read : Memory → Nat → Option Byte
  | [], _ => none
  | c :: m, a => if c.1 = a then some c.2 else Memory.read m a

/-- `buf[a] <- b`, keeping the cells in rising order. -/
def Memory.write : Memory → Nat → Byte → Memory
  | [], a, b => [(a, b)]
  | c :: m, a, b =>
    if a < c.1 then (a, b) :: c :: m
    else if a = c.1 then (a, b) :: m
    else c :: Memory.write m a b

/-- `buf[a ..< a + n]`, `none` where a byte of it has not been written (R8). -/
def Memory.slice (m : Memory) : Nat → Nat → Option (List Byte)
  | _, 0 => some []
  | a, n + 1 =>
    match Memory.read m a, Memory.slice m (a + 1) n with
    | some b, some bs => some (b :: bs)
    | _, _            => none

/-- Bytes written one after another from index `a` on. -/
def Memory.writeAll (m : Memory) (a : Nat) : List Byte → Memory
  | []      => m
  | b :: bs => Memory.writeAll (m.write a b) (a + 1) bs

/-- The canonical form: addresses strictly rising from `lo` on, each below 260 (R22). -/
def Memory.wfFrom : Nat → Memory → Bool
  | _, []      => true
  | lo, c :: m => decide (lo ≤ c.1) && decide (c.1 < bufCapacity) && Memory.wfFrom (c.1 + 1) m

/-- The canonical form of the frame buffer. -/
def Memory.wf (m : Memory) : Bool := Memory.wfFrom 0 m

/-! ### The slots -/

/-- The variant a slot belongs to (R29). -/
def SlotName.variant : SlotName → Variant
  | .address | .rollMrad | .pitchMrad | .yawMrad | .posX | .posY | .posZ | .velX | .velY | .velZ | .voltageMv | .beacons | .status | .posErr => .telemetry
  | .sysIdentifier | .sysConfigStatus | .sysLogStatus | .sysLoggerCapacity | .sysLogSize => .sysStatus
  | .hwId | .fwType | .fwVersion | .protoMinor | .protoMajor | .commitHash | .commitCount => .info
  | .accX | .accY | .accZ => .rawAccel
  | .lvl0 | .lvl1 | .lvl2 | .lvl3 => .strength

/-- The width of a slot's value (R20). -/
def SlotName.width : SlotName → Nat
  | .address | .beacons | .status | .posErr => 8
  | .pitchMrad => 12
  | .rollMrad => 13
  | .yawMrad | .velX | .velY | .velZ | .voltageMv | .commitCount | .accX | .accY | .accZ => 16
  | .lvl0 | .lvl1 | .lvl2 | .lvl3 => 16
  | .posX | .posY | .posZ | .sysIdentifier | .sysConfigStatus | .sysLogStatus | .sysLoggerCapacity | .sysLogSize | .hwId => 32
  | .fwType | .fwVersion | .protoMinor | .protoMajor | .commitHash => 32

/-- Whether a slot holds a two's-complement number (R20, R33, R36). -/
def SlotName.signed : SlotName → Bool
  | .posX | .posY | .posZ | .velX | .velY | .velZ | .accX | .accY | .accZ | .lvl0 | .lvl1 | .lvl2 | .lvl3 => true
  | .address | .rollMrad | .pitchMrad | .yawMrad | .voltageMv | .beacons | .status | .posErr | .sysIdentifier | .sysConfigStatus => false
  | .sysLogStatus | .sysLoggerCapacity | .sysLogSize | .hwId | .fwType | .fwVersion | .protoMinor | .protoMajor | .commitHash | .commitCount => false

/-- Valid bit and value, widened to 32 bits, of a slot. -/
def Store.get (st : Store) : SlotName → Bool × Word32
  | .address => st.address.view
  | .rollMrad => st.rollMrad.view
  | .pitchMrad => st.pitchMrad.view
  | .yawMrad => st.yawMrad.view
  | .posX => st.posX.view
  | .posY => st.posY.view
  | .posZ => st.posZ.view
  | .velX => st.velX.view
  | .velY => st.velY.view
  | .velZ => st.velZ.view
  | .voltageMv => st.voltageMv.view
  | .beacons => st.beacons.view
  | .status => st.status.view
  | .posErr => st.posErr.view
  | .sysIdentifier => st.sysIdentifier.view
  | .sysConfigStatus => st.sysConfigStatus.view
  | .sysLogStatus => st.sysLogStatus.view
  | .sysLoggerCapacity => st.sysLoggerCapacity.view
  | .sysLogSize => st.sysLogSize.view
  | .hwId => st.hwId.view
  | .fwType => st.fwType.view
  | .fwVersion => st.fwVersion.view
  | .protoMinor => st.protoMinor.view
  | .protoMajor => st.protoMajor.view
  | .commitHash => st.commitHash.view
  | .commitCount => st.commitCount.view
  | .accX => st.accX.view
  | .accY => st.accY.view
  | .accZ => st.accZ.view
  | .lvl0 => st.lvl0.view
  | .lvl1 => st.lvl1.view
  | .lvl2 => st.lvl2.view
  | .lvl3 => st.lvl3.view

/-- `slot <- some(v)`, one atomic replacement (R30). -/
def Store.write (st : Store) : SlotName → Word32 → Store
  | .address, v => { st with address := st.address.put v }
  | .rollMrad, v => { st with rollMrad := st.rollMrad.put v }
  | .pitchMrad, v => { st with pitchMrad := st.pitchMrad.put v }
  | .yawMrad, v => { st with yawMrad := st.yawMrad.put v }
  | .posX, v => { st with posX := st.posX.put v }
  | .posY, v => { st with posY := st.posY.put v }
  | .posZ, v => { st with posZ := st.posZ.put v }
  | .velX, v => { st with velX := st.velX.put v }
  | .velY, v => { st with velY := st.velY.put v }
  | .velZ, v => { st with velZ := st.velZ.put v }
  | .voltageMv, v => { st with voltageMv := st.voltageMv.put v }
  | .beacons, v => { st with beacons := st.beacons.put v }
  | .status, v => { st with status := st.status.put v }
  | .posErr, v => { st with posErr := st.posErr.put v }
  | .sysIdentifier, v => { st with sysIdentifier := st.sysIdentifier.put v }
  | .sysConfigStatus, v => { st with sysConfigStatus := st.sysConfigStatus.put v }
  | .sysLogStatus, v => { st with sysLogStatus := st.sysLogStatus.put v }
  | .sysLoggerCapacity, v => { st with sysLoggerCapacity := st.sysLoggerCapacity.put v }
  | .sysLogSize, v => { st with sysLogSize := st.sysLogSize.put v }
  | .hwId, v => { st with hwId := st.hwId.put v }
  | .fwType, v => { st with fwType := st.fwType.put v }
  | .fwVersion, v => { st with fwVersion := st.fwVersion.put v }
  | .protoMinor, v => { st with protoMinor := st.protoMinor.put v }
  | .protoMajor, v => { st with protoMajor := st.protoMajor.put v }
  | .commitHash, v => { st with commitHash := st.commitHash.put v }
  | .commitCount, v => { st with commitCount := st.commitCount.put v }
  | .accX, v => { st with accX := st.accX.put v }
  | .accY, v => { st with accY := st.accY.put v }
  | .accZ, v => { st with accZ := st.accZ.put v }
  | .lvl0, v => { st with lvl0 := st.lvl0.put v }
  | .lvl1, v => { st with lvl1 := st.lvl1.put v }
  | .lvl2, v => { st with lvl2 := st.lvl2.put v }
  | .lvl3, v => { st with lvl3 := st.lvl3.put v }

/-- The number a slot's bits stand for (R167: the raw reads return the stored integers). -/
def SlotName.number (n : SlotName) (v : Word32) : Int :=
  if n.signed then (v.setWidth n.width).toInt else (v.toNat : Int)

/-- What `READ(slot)` returns (R167): `none` while the slot is invalid. -/
def Store.read (st : Store) (n : SlotName) : Option Int :=
  if (st.get n).1 then some (n.number (st.get n).2) else none

/-- One slot write of a commit. -/
structure SlotWrite where
  slot  : SlotName
  value : Word32
  deriving DecidableEq, Repr

/-- Slot writes done one after another. -/
def Store.writeAll (st : Store) : List SlotWrite → Store
  | []      => st
  | w :: ws => Store.writeAll (st.write w.slot w.value) ws

/-! ### Events, consumer operations, commits -/

/-- `raise E(info)`: append to the step's event list (R190). -/
def State.raise (s : State) (e : Event) : State := { s with events := s.events ++ [e] }

/-- What a consumer operation answers: whether `fresh` was set (R166); the slot's number or `none` (R167). -/
def State.answer (s : State) : ConsumerOp → Reply
  | .takeIfFresh => .took s.fresh
  | .read n      => .value n (s.store.read n)

/-- A consumer operation, one action: `take_if_fresh` tests and clears `fresh` (R64, R166), `READ` samples one slot and changes
nothing (R167). -/
def State.consume (s : State) : ConsumerOp → State
  | .takeIfFresh => { s.clearFresh with replies := s.replies ++ [s.answer .takeIfFresh] }
  | .read n      => { s with replies := s.replies ++ [s.answer (.read n)] }

/-- One slot write of the commit in progress. -/
def State.writeSlot (s : State) (w : SlotWrite) : State := { s with store := s.store.write w.slot w.value }

/-- The slot writes `ws` of one commit, interleaved with consumer operations as `items` say (R58, U5): any order of the writes,
consumer operations between any two of them and none inside one. What `items` leave undone is done at the end. -/
def runSchedule : List SchedItem → List SlotWrite → State → State
  | [], ws, s => { s with store := s.store.writeAll ws }
  | .consumer op :: items, ws, s => runSchedule items ws (s.consume op)
  | .write k :: items, ws, s =>
    match ws[k]? with
    | some w => runSchedule items (ws.eraseIdx k) (s.writeSlot w)
    | none   => runSchedule items ws s

/-- A commit of the slot writes `ws` under the step's interleaving, which it uses up (R160 to R164). A step that commits nothing
is a commit of no writes: its consumer operations still happen (R10). -/
def State.commit (s : State) (ws : List SlotWrite) : State := { runSchedule s.sched ws s with sched := [] }

/-- Go on with the outcome of a step. -/
def andThen (o : Host.Outcome State Fault Refusal) (f : State → Host.Outcome State Fault Refusal) :
    Host.Outcome State Fault Refusal :=
  match o with
  | .next s    => f s
  | .fault r   => .fault r
  | .refused r => .refused r

end Sys2Proof.Machine
end

