-- ==== Sys2Proof/Machine/Operands.lean ====
section
/-! DEFINITION. From an instruction's operands to slot values: the packed orientation word (spec 30_encoding.md R81), the
fixed-point angle functions (42_decoder.md R141), and the slot writes of each record (43_store_host.md R160 to R164; values by
R132 to R136). Every other field is stored as it stands (R82). -/

namespace Sys2Proof.Machine

/-- `roll_f = raw[10:0]` (R81). -/
def rollField (raw : Word32) : BitVec 11 := raw.extractLsb' 0 11

/-- `pitch_f = raw[20:11]` (R81). -/
def pitchField (raw : Word32) : BitVec 10 := raw.extractLsb' 11 10

/-- `yaw_f = raw[31:21]` (R81). -/
def yawField (raw : Word32) : BitVec 11 := raw.extractLsb' 21 11

/-- `Q(k, d)`, the integer nearest to `1000 k π / d`, by the exact integer definition of R141. -/
def milliradians (k d : Nat) : Nat := (2 * k * 3141592654 * 1000 + d * 10 ^ 9) / (2 * d * 10 ^ 9)

/-- `ROLL(k) = Q(k, 1024)` (R141). -/
def roll (k : Nat) : Nat := milliradians k 1024

/-- `PITCH(k) = Q(k, 1024)` (R141). -/
def pitch (k : Nat) : Nat := milliradians k 1024

/-- `YAW(k) = Q(k, 102)`: the divisor is 102 (R141, R143). -/
def yaw (k : Nat) : Nat := milliradians k 102

/-- The slot writes of a Telemetry record (R132, R160). -/
def telemetryWrites (addr : Byte) (orient posX posY posZ : Word32) (velX velY velZ voltageMv : BitVec 16)
    (beacons status posErr : Byte) : List SlotWrite :=
  [⟨.address, addr.setWidth 32⟩,
   ⟨.rollMrad, BitVec.ofNat 32 (roll (rollField orient).toNat)⟩,
   ⟨.pitchMrad, BitVec.ofNat 32 (pitch (pitchField orient).toNat)⟩,
   ⟨.yawMrad, BitVec.ofNat 32 (yaw (yawField orient).toNat)⟩,
   ⟨.posX, posX⟩, ⟨.posY, posY⟩, ⟨.posZ, posZ⟩,
   ⟨.velX, velX.setWidth 32⟩, ⟨.velY, velY.setWidth 32⟩, ⟨.velZ, velZ.setWidth 32⟩,
   ⟨.voltageMv, voltageMv.setWidth 32⟩,
   ⟨.beacons, beacons.setWidth 32⟩, ⟨.status, status.setWidth 32⟩, ⟨.posErr, posErr.setWidth 32⟩]

/-- The slot writes of a SysStatus record (R133, R161). -/
def sysStatusWrites (identifier configStatus logStatus loggerCapacity logSize : Word32) : List SlotWrite :=
  [⟨.sysIdentifier, identifier⟩, ⟨.sysConfigStatus, configStatus⟩, ⟨.sysLogStatus, logStatus⟩,
   ⟨.sysLoggerCapacity, loggerCapacity⟩, ⟨.sysLogSize, logSize⟩]

/-- The slot writes of an Info record (R134, R162). -/
def infoWrites (hwId fwType fwVersion protoMinor protoMajor commitHash : Word32) (commitCount : BitVec 16) : List SlotWrite :=
  [⟨.hwId, hwId⟩, ⟨.fwType, fwType⟩, ⟨.fwVersion, fwVersion⟩, ⟨.protoMinor, protoMinor⟩, ⟨.protoMajor, protoMajor⟩,
   ⟨.commitHash, commitHash⟩, ⟨.commitCount, commitCount.setWidth 32⟩]

/-- The slot writes of a RawAccel record (R135, R163). -/
def rawAccelWrites (accX accY accZ : BitVec 16) : List SlotWrite :=
  [⟨.accX, accX.setWidth 32⟩, ⟨.accY, accY.setWidth 32⟩, ⟨.accZ, accZ.setWidth 32⟩]

/-- The slot writes of a Strength record (R136, R164). -/
def strengthWrites (lvl0 lvl1 lvl2 lvl3 : BitVec 16) : List SlotWrite :=
  [⟨.lvl0, lvl0.setWidth 32⟩, ⟨.lvl1, lvl1.setWidth 32⟩, ⟨.lvl2, lvl2.setWidth 32⟩, ⟨.lvl3, lvl3.setWidth 32⟩]

end Sys2Proof.Machine
end

