-- ==== Sys2Proof/Machine/Info.lean ====
section
/-! DEFINITION. INFO, tag 0x18 (spec 42_decoder.md R130, R134; 43_store_host.md R162). -/

namespace Sys2Proof.Machine

/-- Commit the seven Info slots in any order, then raise `Record(Info)` (R130, R134, R162). The address byte is not stored
(R31); the bytes behind the last field are ignored. -/
def execInfo (_addr : Byte) (hwId fwType fwVersion protoMinor protoMajor commitHash : Word32) (commitCount : BitVec 16)
    (_extra : List Byte) (s : State) : Host.Outcome State Fault Refusal :=
  .next ((s.commit (infoWrites hwId fwType fwVersion protoMinor protoMajor commitHash commitCount)).raise (.record .info))

end Sys2Proof.Machine
end

