-- ==== Sys2Proof/Machine/RawAccel.lean ====
section
/-! DEFINITION. RAWACCEL, tag 0x1D (spec 42_decoder.md R130, R135; 43_store_host.md R163). -/

namespace Sys2Proof.Machine

/-- Commit the three RawAccel slots in any order, then raise `Record(RawAccel)` (R130, R135, R163). The address byte is not
stored (R31); the bytes behind the last field are ignored. -/
def execRawAccel (_addr : Byte) (accX accY accZ : BitVec 16) (_extra : List Byte) (s : State) :
    Host.Outcome State Fault Refusal :=
  .next ((s.commit (rawAccelWrites accX accY accZ)).raise (.record .rawAccel))

end Sys2Proof.Machine
end

