-- ==== Sys2Proof/Machine/Strength.lean ====
section
/-! DEFINITION. STRENGTH, tag 0x33 (spec 42_decoder.md R130, R136; 43_store_host.md R164). -/

namespace Sys2Proof.Machine

/-- Commit the four Strength slots in any order, then raise `Record(Strength)` (R130, R136, R164). The address byte is not
stored (R31). -/
def execStrength (_addr : Byte) (lvl0 lvl1 lvl2 lvl3 : BitVec 16) (s : State) : Host.Outcome State Fault Refusal :=
  .next ((s.commit (strengthWrites lvl0 lvl1 lvl2 lvl3)).raise (.record .strength))

end Sys2Proof.Machine
end

