-- ==== Sys2Proof/Machine/SysStatus.lean ====
section
/-! DEFINITION. SYSSTATUS, tag 0x08 (spec 42_decoder.md R130, R133; 43_store_host.md R161). -/

namespace Sys2Proof.Machine

/-- Commit the five SysStatus slots in any order, then raise `Record(SysStatus)` (R130, R133, R161). The address byte is not
stored (R31). -/
def execSysStatus (_addr : Byte) (identifier configStatus logStatus loggerCapacity logSize : Word32) (s : State) :
    Host.Outcome State Fault Refusal :=
  .next ((s.commit (sysStatusWrites identifier configStatus logStatus loggerCapacity logSize)).raise (.record .sysStatus))

end Sys2Proof.Machine
end

