-- ==== Sys2Proof/Machine/Telemetry.lean ====
section
/-! DEFINITION. TELEMETRY, tag 0x02 (spec 42_decoder.md R130, R132; 43_store_host.md R160). -/

namespace Sys2Proof.Machine

/-- Commit the 14 Telemetry slots in any order, then `fresh <- 1`, then raise `Record(Telemetry)` (R130, R132, R160). The bytes
behind the last field are ignored. -/
def execTelemetry (addr : Byte) (orient posX posY posZ : Word32) (velX velY velZ voltageMv : BitVec 16)
    (beacons status posErr : Byte) (_extra : List Byte) (s : State) : Host.Outcome State Fault Refusal :=
  .next (((s.commit (telemetryWrites addr orient posX posY posZ velX velY velZ voltageMv beacons status posErr)).setFresh).raise
    (.record .telemetry))

end Sys2Proof.Machine
end

