-- ==== Sys2Proof/Machine/Unrecognized.lean ====
section
/-! DEFINITION. UNRECOGNIZED, every other frame (spec 42_decoder.md R130, R137). -/

namespace Sys2Proof.Machine

/-- The event that reports why a frame is ignored (R130, R137, R191). -/
def noticeEvent (why : Reason) (tag : Byte) (len : Nat) : Event :=
  match why with
  | .unrecognizedTag => .unrecognizedTag tag len
  | .lengthMismatch  => .lengthMismatch tag len
  | .shortFrame      => .shortFrame tag len

/-- Write no slot; raise the reason with `F[3]` and `len(F)` (R130, R137). -/
def execUnrecognized (why : Reason) (_addr tag : Byte) (payload : List Byte) (s : State) : Host.Outcome State Fault Refusal :=
  .next ((s.commit []).raise (noticeEvent why tag (headerLen + payload.length)))

end Sys2Proof.Machine
end

