-- ==== Sys2Proof/Machine/Dispatch.lean ====
section
/-! DEFINITION. One arm per instruction: `DECODE_AND_COMMIT` of a decoded frame (spec 42_decoder.md R130). -/

namespace Sys2Proof.Machine

def exec (i : Instr) (s : State) : Host.Outcome State Fault Refusal :=
  match i with
  | .telemetry addr o x y z vx vy vz mv bc st pe extra => Sys2Proof.Machine.execTelemetry addr o x y z vx vy vz mv bc st pe extra s
  | .sysStatus addr ident cfg log cap size => Sys2Proof.Machine.execSysStatus addr ident cfg log cap size s
  | .info addr hw fwt fwv pmin pmaj hash cnt extra => Sys2Proof.Machine.execInfo addr hw fwt fwv pmin pmaj hash cnt extra s
  | .rawAccel addr ax ay az extra => Sys2Proof.Machine.execRawAccel addr ax ay az extra s
  | .strength addr l0 l1 l2 l3 => Sys2Proof.Machine.execStrength addr l0 l1 l2 l3 s
  | .unrecognized why addr tag payload => Sys2Proof.Machine.execUnrecognized why addr tag payload s

end Sys2Proof.Machine
end

