-- ==== Sys2Proof/Machine/Sync.lean ====
section
/-! DEFINITION. The Frame Synchronizer (spec 41_framesync.md): one rule per state (R111 to R115), `STEP(b)` (R110), `feed` (R118)
and the batched FILL (R120). -/

namespace Sys2Proof.Machine

/-- The synchronizer state, a function of `idx` and `expected_size` (R24; `STEP` of R110 takes CHECK as its last case). -/
def State.phase (s : State) : Phase :=
  if s.idx = 0 then .seek
  else if s.idx = 1 then .size
  else if s.idx < s.expectedSize then .fill
  else .check

/-- SEEK (R111): take the start marker, drop every other byte. -/
def State.seek (s : State) (b : Byte) : State :=
  if b = startMarker then { s with buf := s.buf.write 0 startMarker, idx := 1 } else s

/-- SIZE (R112): `expected_size <- zext_9(b) + 4`. -/
def State.size (s : State) (b : Byte) : State :=
  { s with buf := s.buf.write 1 b, expectedSize := b.setWidth 9 + 4, idx := 2 }

/-- FILL (R113). -/
def State.fill (s : State) (b : Byte) : State :=
  { s with buf := s.buf.write s.idx.toNat b, idx := s.idx + 1 }

/-- CHECK when the CRC does not match (R115, R200): back to SEEK with the diagnostic, nothing else. -/
def State.reject (s : State) (addr : Byte) : State :=
  { s with idx := 0 }.raise (.crcMismatch addr s.expectedSize)

/-- CHECK when the CRC matches (R114): back to SEEK, emit the frame, decode and commit it in the same step. -/
def State.accept (s : State) (F : List Byte) : Host.Outcome State Fault Refusal :=
  match decodeFrame s.params.layout F with
  | .ok i                 => exec i ({ s with idx := 0 }.raise (.frame F))
  | .error .headerMissing => .fault .frameWithoutHeader
  | .error _              => .refused .layoutOutsideFrame

/-- CHECK (R114, R115): compare the byte with `crc8(buf[1 ..< expected_size])`. -/
def State.check (s : State) (b : Byte) : Host.Outcome State Fault Refusal :=
  match s.buf.slice 1 (s.expectedSize.toNat - 1), s.buf.slice 0 s.expectedSize.toNat, s.buf.read 2 with
  | some body, some F, some addr =>
    if b = crc8 s.params.crc8Table body then s.accept F else .next ((s.reject addr).commit [])
  | _, _, _ => .fault .bufferNotWritten

/-- `STEP(b)` (R110). While `stopped` the byte has no effect (R128). A step that commits nothing still lets the consumer act
(`commit []`). -/
def stepByte (b : Byte) (s : State) : Host.Outcome State Fault Refusal :=
  if s.stopped then .next (s.commit [])
  else
    match s.phase with
    | .seek  => .next ((s.seek b).commit [])
    | .size  => .next ((s.size b).commit [])
    | .fill  => if s.idx.toNat < bufCapacity then .next ((s.fill b).commit []) else .fault .bufferIndexOutside
    | .check => s.check b

/-- `feed(s)`: the steps for the bytes of a chunk in order, their events appended (R118). -/
def feed : List Byte → State → Host.Outcome State Fault Refusal
  | [], s      => .next s
  | b :: bs, s => andThen (stepByte b s) (feed bs)

/-- The batched FILL: `k` bytes copied at once (R57, R120). -/
def State.fillBatch (s : State) (bs : List Byte) : State :=
  { s with buf := s.buf.writeAll s.idx.toNat bs, idx := s.idx + BitVec.ofNat 9 bs.length }

/-- The candidate `F` complete in the buffer and its CRC byte offered next, under the table `T` and the layout `L`. -/
def State.placeFrame (s : State) (T : Vector Byte 256) (L : Layout) (F : List Byte) : State :=
  { s with
    buf := s.buf.writeAll 0 F, expectedSize := BitVec.ofNat 9 F.length, idx := BitVec.ofNat 9 F.length,
    stopped := false, params := ⟨T, L⟩, inputs := .byte (crc8 T (F.drop 1)) [] :: s.inputs }

end Sys2Proof.Machine
end

