-- ==== Sys2Proof/Machine/Environment.lean ====
section
/-! DEFINITION. What the outside world does: RESET (spec 70_reset_and_hazards.md R220), SYNC_RESTART (41_framesync.md R121), STOP
and FEED (43_store_host.md R174, R175), and one item of the input queue. -/

namespace Sys2Proof.Machine

/-- RESET (R220): `buf`, `expected_size` and slot values are not written. -/
def State.resetOp (s : State) : State :=
  { s with idx := 0, fresh := false, stopped := false, store := s.store.invalidate }

/-- SYNC_RESTART (R121): `idx <- 0` and nothing else. -/
def State.syncRestart (s : State) : State := { s with idx := 0 }

/-- FEED(s): the transport's bytes offered in order, behind what is already offered (R174). -/
def State.offer (s : State) (bs : List Byte) : State :=
  { s with inputs := s.inputs ++ bs.map (fun b => .byte b []) }

/-- A new step: the last step's outputs are gone (R44, R190) and the first input is taken. -/
def State.begin (s : State) (rest : List Input) : State :=
  { s with inputs := rest, events := [], replies := [] }

/-- What one input does. An offered byte brings the interleaving of its step. -/
def perform (i : Input) (s : State) : Host.Outcome State Fault Refusal :=
  match i with
  | .byte b during => stepByte b { s with sched := during }
  | .reset         => .next s.resetOp
  | .syncRestart   => .next s.syncRestart
  | .stop          => .next s.setStopped
  | .consumer op   => .next (s.consume op)

end Sys2Proof.Machine
end

