-- ==== Sys2Proof/Machine/Views.lean ====
section
/-! DEFINITION. The consumer's grouped accessors and the host-side unit views (spec 43_store_host.md R168 to R173): reads of
slots and exact numbers, no state of the block. -/

namespace Sys2Proof.Machine

/-- The source's accessors (R168). -/
inductive Accessor where
  | position | angles | velocity | voltage | status | address | info | rawAccel | signalLevels
  deriving DecidableEq, Repr

/-- The slots an accessor reads, in its order (R168). -/
def Accessor.slots : Accessor → List SlotName
  | .position     => [.posX, .posY, .posZ, .beacons]
  | .angles       => [.rollMrad, .pitchMrad, .yawMrad]
  | .velocity     => [.velX, .velY, .velZ]
  | .voltage      => [.voltageMv]
  | .status       => [.status]
  | .address      => [.address]
  | .info         => [.hwId, .fwType, .fwVersion, .protoMinor, .protoMajor, .commitHash, .commitCount]
  | .rawAccel     => [.accX, .accY, .accZ]
  | .signalLevels => [.lvl0, .lvl1, .lvl2, .lvl3]

/-- The separate atomic reads that make up an accessor: not a snapshot, other inputs may come between them (R168). -/
def Accessor.ops (a : Accessor) : List ConsumerOp := a.slots.map .read

/-- What a group of reads returns: every number, or `none` when one of them is `none` (R168). -/
def assemble : List (Option Int) → Option (List Int)
  | []              => some []
  | none :: _       => none
  | some x :: rest  =>
    match assemble rest with
    | some xs => some (x :: xs)
    | none    => none

/-- An accessor whose reads see one and the same store. -/
def Accessor.sample (a : Accessor) (st : Store) : Option (List Int) := assemble (a.slots.map st.read)

/-- Position in metres, exact (R170). -/
def metres (mm : Int) : Rat := mm / 1000

/-- Voltage in volts, exact (R171). -/
def volts (mv : Int) : Rat := mv / 1000

/-- The angle in degrees times π, exact: `deg = (mrad / 1000) * 180 / π` (R172), so `deg * π` is rational. -/
def degreesTimesPi (mrad : Int) : Rat := mrad / 1000 * 180

/-- The event codes of R191 (decision D12). -/
def Event.code : Event → Nat
  | .frame _           => 1
  | .crcMismatch _ _   => 2
  | .record _          => 3
  | .unrecognizedTag _ _ => 4
  | .lengthMismatch _ _ => 5
  | .shortFrame _ _    => 6

end Sys2Proof.Machine
end

