-- ==== Sys2Proof/Machine/Step.lean ====
section
/-! DEFINITION. One step of the machine: what the outside world does next, with everything it causes in the block (spec
00_scope.md R10, R11). -/

namespace Sys2Proof.Machine

/-- Take the first input of the queue and perform it. With nothing offered the block takes no step and only the outputs of the
last step are gone (R208). -/
def step (s : State) : Host.Outcome State Fault Refusal :=
  match s.inputs with
  | []        => .next (s.begin [])
  | i :: rest => perform i (s.begin rest)

/-- The frame of a table word complete in the buffer, its CRC byte under the reference table T07 offered next (R106): the very
next step is the CHECK that emits, decodes and commits it (assumption 5). -/
def State.withFetchWord (s : State) (nbits w : Nat) : State :=
  s.placeFrame t07 Layout.default (tableBytes nbits w)

end Sys2Proof.Machine
end

