-- ==== Sys2Proof/Safety.lean ====
section
/-! DEFINITION. The terms in which claims about the block are made: the invariant of the cursor and the buffer (spec
10_state.md R25), the ranges of the slots (R20, R32), what a step leaves alone, what a consumer can tell apart
(70_reset_and_hazards.md R221), and the bytes of a frame read field by field. -/

namespace Sys2Proof.Machine

/-! ### The invariant -/

/-- R25: no candidate; or the marker taken; or a candidate of `idx` bytes whose size byte gave `expected_size`. -/
def State.CursorOk (s : State) : Prop :=
  s.idx = 0 ∨
  (s.idx = 1 ∧ s.buf.read 0 = some startMarker) ∨
  (2 ≤ s.idx.toNat ∧ s.idx.toNat ≤ s.expectedSize.toNat ∧ s.buf.read 0 = some startMarker ∧
    ∃ n : Byte, s.buf.read 1 = some n ∧ s.expectedSize.toNat = n.toNat + 4)

/-- The invariant of the machine: R25; the buffer in its canonical form; every byte of the open candidate written (R221: none
is read before); a layout that R75 admits. -/
structure State.Inv (s : State) : Prop where
  cursor    : s.CursorOk
  canonical : Memory.wf s.buf = true
  written   : ∀ a, a < s.idx.toNat → ∃ b, s.buf.read a = some b
  layout    : s.params.layout.wf = true

/-- The field of `LAYOUT` whose width bounds a slot, for the slots whose width the spec leaves to `LAYOUT` (R20, R34, R35). -/
def SlotName.layoutField (L : Layout) : SlotName → Option Field
  | .sysIdentifier     => some L.sysIdentifier
  | .sysConfigStatus   => some L.sysConfigStatus
  | .sysLogStatus      => some L.sysLogStatus
  | .sysLoggerCapacity => some L.sysLoggerCapacity
  | .sysLogSize        => some L.sysLogSize
  | .hwId              => some L.hwId
  | .fwType            => some L.fwType
  | .fwVersion         => some L.fwVersion
  | .protoMinor        => some L.protoMinor
  | .protoMajor        => some L.protoMajor
  | .address | .rollMrad | .pitchMrad | .yawMrad | .posX | .posY | .posZ | .velX | .velY | .velZ | .voltageMv => none
  | .beacons | .status | .posErr | .commitHash | .commitCount => none
  | .accX | .accY | .accZ | .lvl0 | .lvl1 | .lvl2 | .lvl3 => none

/-- The ranges of R20 and R32 that are tighter than the slot's width in the model: the angles, and the slots whose width is
`LAYOUT`'s. -/
structure State.SlotsInRange (s : State) : Prop where
  roll   : ∀ x, s.store.read .rollMrad = some x → 0 ≤ x ∧ x ≤ 6280
  pitch  : ∀ x, s.store.read .pitchMrad = some x → 0 ≤ x ∧ x ≤ 3139
  yaw    : ∀ x, s.store.read .yawMrad = some x → 0 ≤ x ∧ x ≤ 63047
  layout : ∀ n f x, n.layoutField s.params.layout = some f → s.store.read n = some x →
    0 ≤ x ∧ x < 256 ^ f.width.bytes

/-! ### Frames -/

/-- Everything but the store, `fresh`, the used-up interleaving and the outputs is as before: the cursor, every byte of the
buffer, `stopped`, the parameters, the queue of inputs. -/
structure SameControl (s t : State) : Prop where
  idx          : t.idx = s.idx
  expectedSize : t.expectedSize = s.expectedSize
  bytes        : ∀ a, t.buf.read a = s.buf.read a
  stopped      : t.stopped = s.stopped
  params       : t.params = s.params
  inputs       : t.inputs = s.inputs

/-- No slot, valid bit or raw value, differs. -/
def SameStore (s t : State) : Prop := ∀ n, t.store.get n = s.store.get n

/-- The slots of every other variant, valid bits and raw values, are as before (R29). -/
def OtherSlotsKept (v : Variant) (s t : State) : Prop := ∀ n, n.variant ≠ v → t.store.get n = s.store.get n

/-- The consumer operations of an interleaving, in order. -/
def consumerOps : List SchedItem → List ConsumerOp
  | []                       => []
  | .write _ :: items        => consumerOps items
  | .consumer op :: items    => op :: consumerOps items

/-- What `fresh` is after consumer operations that began with `f`: a take clears it (R166). -/
def freshAfter (ops : List ConsumerOp) (f : Bool) : Bool := f && !ops.contains .takeIfFresh

/-- The replies of a step's consumer operations are appended: as many as there are operations. -/
def RepliesAppended (s t : State) : Prop :=
  ∃ rs, t.replies = s.replies ++ rs ∧ rs.length = (consumerOps s.sched).length

/-! ### Events -/

/-- A decoder's event: `Record`, or one of the three notices (R194). -/
def Event.ofDecoder : Event → Prop
  | .record _            => True
  | .unrecognizedTag _ _ => True
  | .lengthMismatch _ _  => True
  | .shortFrame _ _      => True
  | .frame _             => False
  | .crcMismatch _ _     => False

/-! ### Frames on the wire -/

/-- A stored frame as the wire format has it: marker, size byte, N + 4 bytes (R70, R72). -/
def StoredFrame (F : List Byte) : Prop := F[0]? = some startMarker ∧ ∃ n : Byte, F[1]? = some n ∧ F.length = n.toNat + 4

/-- The byte of a frame at an offset inside it. -/
def byteAt (F : List Byte) (a : Nat) : Byte := F.getD a 0#8

/-- The 16 bits at an offset, the lower byte the less significant (R52). -/
def halfAt (F : List Byte) (a : Nat) : BitVec 16 := byteAt F (a + 1) ++ byteAt F a

/-- The 32 bits at an offset, the lowest byte the least significant (R52). -/
def wordAt (F : List Byte) (a : Nat) : Word32 := byteAt F (a + 3) ++ byteAt F (a + 2) ++ byteAt F (a + 1) ++ byteAt F a

/-- The unsigned number of an unsigned field, as 32 bits (R52, R82). -/
def unsignedAt (F : List Byte) (f : Field) : Word32 :=
  match f.width with
  | .one  => (byteAt F f.offset).setWidth 32
  | .two  => (halfAt F f.offset).setWidth 32
  | .four => wordAt F f.offset

/-- A state in CHECK whose candidate `F` is complete and whose next input is its matching CRC byte (the guard of R114). -/
structure AboutToEmit (s : State) (F : List Byte) (during : List SchedItem) (rest : List Input) : Prop where
  running  : s.stopped = false
  cursor   : 2 ≤ s.idx.toNat
  complete : s.idx = s.expectedSize
  stored   : s.buf.slice 0 s.expectedSize.toNat = some F
  input    : s.inputs = .byte (crc8 s.params.crc8Table (F.drop 1)) during :: rest

/-- The state in which CHECK hands the frame to the decoder: cursor back in SEEK, `Frame(F)` raised (R114), the byte taken from
the queue, its interleaving at hand. -/
def State.emitted (s : State) (F : List Byte) (during : List SchedItem) (rest : List Input) : State :=
  { s with idx := 0, inputs := rest, sched := during, events := [.frame F], replies := [] }

/-- The synchronizer is between frames, running, and no consumer acts inside the next step. -/
structure ReadyInSeek (s : State) : Prop where
  seek    : s.idx = 0
  running : s.stopped = false
  alone   : s.sched = []

/-! ### What can be told apart -/

/-- Two states that differ only in what the spec leaves unspecified (R221): buffer bytes that the open candidate has not
written, `expected_size` before the SIZE step, the value parts of invalid slots. -/
structure Alike (s t : State) : Prop where
  idx          : t.idx = s.idx
  expectedSize : 2 ≤ s.idx.toNat → t.expectedSize = s.expectedSize
  bytes        : ∀ a, a < s.idx.toNat → t.buf.read a = s.buf.read a
  valid        : ∀ n, (t.store.get n).1 = (s.store.get n).1
  values       : ∀ n, (s.store.get n).1 = true → t.store.get n = s.store.get n
  fresh        : t.fresh = s.fresh
  stopped      : t.stopped = s.stopped
  params       : t.params = s.params
  inputs       : t.inputs = s.inputs
  sched        : t.sched = s.sched
  events       : t.events = s.events
  replies      : t.replies = s.replies

end Sys2Proof.Machine
end

