-- ==== Sys2Proof/Certificates/Slice0/Obligations.lean ====
section
/-! DEFINITION. The statements about the Locus3D CORE, for the provers. Each docstring names the rule of spec/ it rests on. -/

open Sys2Proof Sys2Proof.Machine

/-! ### Reset and the environment -/

/-- R220, R221: the state after power-on is SEEK, with no flag set and no slot valid. What the spec leaves unspecified there is left
out. -/
def Obligations.ResetStateIsSeekWithEmptyStore : Prop :=
  State.reset.phase = .seek ∧ State.reset.idx = 0 ∧ State.reset.fresh = false ∧ State.reset.stopped = false ∧
  State.reset.answer .takeIfFresh = .took false ∧
  ∀ n, (State.reset.store.get n).1 = false ∧ State.reset.store.read n = none

/-- R220: RESET from any state: what it writes, what it leaves, what a consumer gets afterwards. -/
def Obligations.ResetClearsCursorFlagsAndValidBits : Prop :=
  ∀ (s : State) (rest : List Input), s.inputs = .reset :: rest →
    ∃ t, step s = .next t ∧ t.idx = 0 ∧ t.phase = .seek ∧ t.fresh = false ∧ t.stopped = false ∧
      t.answer .takeIfFresh = .took false ∧
      (∀ n, t.store.get n = (false, (s.store.get n).2) ∧ t.store.read n = none) ∧
      (∀ a : Accessor, a.sample t.store = none) ∧
      t.expectedSize = s.expectedSize ∧ (∀ a, t.buf.read a = s.buf.read a) ∧ t.params = s.params ∧
      t.inputs = rest ∧ t.events = [] ∧ t.replies = []

/-- R121: SYNC_RESTART writes `idx` and nothing else. -/
def Obligations.SyncRestartWritesOnlyTheCursor : Prop :=
  ∀ (s : State) (rest : List Input), s.inputs = .syncRestart :: rest →
    step s = .next { s with idx := 0, inputs := rest, events := [], replies := [] }

/-- R175: STOP writes `stopped` and nothing else; the step of a byte offered afterwards leaves cursor, buffer and store alone. -/
def Obligations.StopWritesOnlyStopped : Prop :=
  ∀ (s : State) (rest : List Input), s.inputs = .stop :: rest →
    step s = .next { s with stopped := true, inputs := rest, events := [], replies := [] } ∧
    ∀ (b : Byte) (during : List SchedItem) (rest' : List Input), rest = .byte b during :: rest' →
      ∃ t, step { s with stopped := true, inputs := rest, events := [], replies := [] } = .next t ∧
        t.idx = s.idx ∧ t.expectedSize = s.expectedSize ∧ (∀ a, t.buf.read a = s.buf.read a) ∧ SameStore s t

/-- R128: while `stopped` is 1 an offered byte has no effect on the block; a consumer may still act. That the byte is gone from the
queue is the model's reading (log entry 7). -/
def Obligations.StoppedBlockIgnoresAByte : Prop :=
  ∀ (s : State) (b : Byte) (during : List SchedItem) (rest : List Input), s.stopped = true →
    s.inputs = .byte b during :: rest →
    ∃ t, step s = .next t ∧ SameStore s t ∧ t.idx = s.idx ∧ t.expectedSize = s.expectedSize ∧
      (∀ a, t.buf.read a = s.buf.read a) ∧ t.stopped = true ∧ t.params = s.params ∧ t.events = [] ∧
      t.fresh = freshAfter (consumerOps during) s.fresh ∧ t.inputs = rest

/-- R39, R128: however many steps go by without a RESET, a stopped block stays stopped and its buffer and store stay as they
were. -/
def Obligations.StoppedBlockStaysFrozenUntilReset : Prop :=
  ∀ (k : Nat) (s : State), s.stopped = true → (∀ i ∈ s.inputs, i ≠ .reset) →
    ∃ t : State, Sys2Proof.core.run k s = .next t ∧ t.stopped = true ∧ SameStore s t ∧
      t.expectedSize = s.expectedSize ∧ (∀ a, t.buf.read a = s.buf.read a) ∧ (t.idx = s.idx ∨ t.idx = 0)

/-- R208, R126: with nothing offered the block takes no step; only the outputs of the last step are gone. -/
def Obligations.NothingOfferedNothingHappens : Prop :=
  ∀ s : State, s.inputs = [] → step s = .next { s with events := [], replies := [] }

/-- A step takes exactly the first input of the model's queue, whatever the input is (log entry 6). For a byte offered to a running
block R10 and R59 say it; that a byte offered to a stopped block leaves the queue is the model's reading of R128 (log entry 7). -/
def Obligations.EachStepTakesTheFirstInput : Prop :=
  ∀ s t : State, step s = .next t → t.inputs = s.inputs.tail

/-! ### The consumer -/

/-- R166: `take_if_fresh` answers `fresh`, clears it and changes nothing else; a second call right after answers false. -/
def Obligations.TakeIfFreshTestsAndClears : Prop :=
  ∀ (s : State) (rest : List Input), s.inputs = .consumer .takeIfFresh :: rest →
    step s = .next { s with fresh := false, inputs := rest, events := [], replies := [.took s.fresh] } ∧
    ∀ rest', rest = .consumer .takeIfFresh :: rest' →
      step { s with fresh := false, inputs := rest, events := [], replies := [.took s.fresh] } =
        .next { s with fresh := false, inputs := rest', events := [], replies := [.took false] }

/-- R167: READ answers the slot's stored integer, or none while the slot is invalid, and changes nothing. -/
def Obligations.ReadAnswersTheSlotAndChangesNothing : Prop :=
  ∀ (s : State) (n : SlotName) (rest : List Input), s.inputs = .consumer (.read n) :: rest →
    step s = .next { s with
      inputs := rest, events := [],
      replies := [.value n (if (s.store.get n).1 then
        some (if n.signed then ((s.store.get n).2.setWidth n.width).toInt else ((s.store.get n).2.toNat : Int)) else none)] }

/-- R168: a group of reads of one store answers none exactly when one of its slots is invalid, and otherwise every number. -/
def Obligations.AccessorGroupIsNoneWhenASlotIsInvalid : Prop :=
  ∀ (a : Accessor) (st : Store),
    (a.sample st = none ↔ ∃ n ∈ a.slots, (st.get n).1 = false) ∧
    ∀ xs, a.sample st = some xs → xs.map some = a.slots.map st.read

/-! ### The synchronizer -/

/-- R111. -/
def Obligations.SeekTakesTheMarkerAndDropsTheRest : Prop :=
  ∀ (s : State) (b : Byte) (during : List SchedItem) (rest : List Input),
    s.stopped = false → s.idx = 0 → s.inputs = .byte b during :: rest →
    ∃ t, step s = .next t ∧
      (b = 0xFE#8 → t.idx = 1 ∧ t.buf.read 0 = some 0xFE#8 ∧ ∀ a, a ≠ 0 → t.buf.read a = s.buf.read a) ∧
      (b ≠ 0xFE#8 → t.idx = 0 ∧ ∀ a, t.buf.read a = s.buf.read a) ∧
      t.expectedSize = s.expectedSize ∧ SameStore s t ∧ t.fresh = freshAfter (consumerOps during) s.fresh ∧
      t.stopped = false ∧ t.params = s.params ∧ t.inputs = rest ∧ t.events = []

/-- R112. -/
def Obligations.SizeSetsTheExpectedSize : Prop :=
  ∀ (s : State) (b : Byte) (during : List SchedItem) (rest : List Input),
    s.stopped = false → s.idx = 1 → s.inputs = .byte b during :: rest →
    ∃ t, step s = .next t ∧ t.idx = 2 ∧ t.expectedSize.toNat = b.toNat + 4 ∧ t.buf.read 1 = some b ∧
      (∀ a, a ≠ 1 → t.buf.read a = s.buf.read a) ∧ t.phase = .fill ∧ SameStore s t ∧
      t.fresh = freshAfter (consumerOps during) s.fresh ∧ t.stopped = false ∧ t.params = s.params ∧ t.inputs = rest ∧
      t.events = []

/-- R113. -/
def Obligations.FillStoresTheByteAndAdvances : Prop :=
  ∀ (s : State) (b : Byte) (during : List SchedItem) (rest : List Input),
    s.stopped = false → 2 ≤ s.idx.toNat → s.idx.toNat < s.expectedSize.toNat → s.expectedSize.toNat ≤ 259 →
    s.inputs = .byte b during :: rest →
    ∃ t, step s = .next t ∧ t.idx.toNat = s.idx.toNat + 1 ∧ t.buf.read s.idx.toNat = some b ∧
      (∀ a, a ≠ s.idx.toNat → t.buf.read a = s.buf.read a) ∧ t.expectedSize = s.expectedSize ∧
      t.phase = (if s.idx.toNat + 1 = s.expectedSize.toNat then .check else .fill) ∧ SameStore s t ∧
      t.fresh = freshAfter (consumerOps during) s.fresh ∧ t.stopped = false ∧ t.params = s.params ∧ t.inputs = rest ∧
      t.events = []

/-- R114: CHECK with a matching CRC. A STEP RUNS THE DECODED FRAME: the step is `exec` of the instruction the decoder reads from
the stored frame, in the state with the cursor back at 0 and `Frame(F)` raised. -/
def Obligations.CheckPassRunsTheDecodedFrame : Prop :=
  ∀ (s : State) (F : List Byte) (during : List SchedItem) (rest : List Input) (i : Instr),
    AboutToEmit s F during rest → decodeFrame s.params.layout F = .ok i →
    step s = exec i (s.emitted F during rest)

/-- R115: CHECK with another byte: the diagnostic, the cursor back at 0, nothing else. -/
def Obligations.CheckFailDropsTheFrame : Prop :=
  ∀ (s : State) (b : Byte) (F : List Byte) (during : List SchedItem) (rest : List Input),
    s.stopped = false → s.idx = s.expectedSize → 4 ≤ s.expectedSize.toNat →
    s.buf.slice 0 s.expectedSize.toNat = some F → b ≠ crc8 s.params.crc8Table (F.drop 1) →
    s.inputs = .byte b during :: rest →
    ∃ t, step s = .next t ∧ t.idx = 0 ∧ t.events = [.crcMismatch (byteAt F 2) s.expectedSize] ∧
      t.expectedSize = s.expectedSize ∧ (∀ a, t.buf.read a = s.buf.read a) ∧ SameStore s t ∧
      t.fresh = freshAfter (consumerOps during) s.fresh ∧ t.stopped = false ∧ t.params = s.params ∧ t.inputs = rest

/-- R21: the cursor advances by one on every byte but these: SEEK on another byte than the marker, and CHECK. -/
def Obligations.CursorAdvancesByOneOrReturnsToZero : Prop :=
  ∀ (s t : State) (b : Byte) (during : List SchedItem) (rest : List Input), s.Inv → s.stopped = false →
    s.inputs = .byte b during :: rest → step s = .next t →
    t.idx.toNat =
      if (s.idx = 0 ∧ b ≠ startMarker) ∨ (2 ≤ s.idx.toNat ∧ s.idx = s.expectedSize) then 0 else s.idx.toNat + 1

/-- R22: no step writes the padding byte of the buffer. -/
def Obligations.PaddingByteIsNeverWritten : Prop :=
  ∀ s t : State, s.Inv → step s = .next t → t.buf.read 259 = s.buf.read 259

/-- R119: the block is a function of the concatenated stream, from any state. -/
def Obligations.ChunkingIsNotObservable : Prop :=
  ∀ (a b : List Byte) (s : State), feed (a ++ b) s = andThen (feed a s) (feed b)

/-- R120: copying at once as many bytes as the frame still takes is as many FILL steps. -/
def Obligations.BatchedFillIsRepeatedFill : Prop :=
  ∀ (s : State) (bs : List Byte), s.stopped = false → s.sched = [] → 2 ≤ s.idx.toNat →
    s.idx.toNat + bs.length ≤ s.expectedSize.toNat → s.expectedSize.toNat ≤ 259 →
    feed bs s = .next (s.fillBatch bs)

/-- R118, R174: bytes queued one after another are the chunk fed at once, but for the outputs, which each step replaces. -/
def Obligations.QueuedBytesAreTheFedChunk : Prop :=
  ∀ (bs : List Byte) (rest : List Input) (s t : State), s.sched = [] →
    s.inputs = bs.map (fun b => .byte b []) ++ rest → feed bs { s with inputs := rest } = .next t →
    ∃ u : State, Sys2Proof.core.run bs.length s = .next u ∧
      { u with events := [], replies := [] } = { t with events := [], replies := [] }

/-- R122: from SEEK, bytes without a marker change nothing, and a wire frame behind them is emitted once, with nothing rejected.
No consumer acts inside these steps. -/
def Obligations.FrameAfterGarbageIsEmittedOnce : Prop :=
  ∀ (s : State) (g F : List Byte), ReadyInSeek s → s.params.layout.wf = true → startMarker ∉ g → StoredFrame F →
    feed g s = .next s ∧
    ∃ t e, feed (g ++ wireFrame s.params.crc8Table F) s = .next t ∧ t.phase = .seek ∧
      t.events = s.events ++ [.frame F, e] ∧ e.ofDecoder

/-- R123: one flipped bit in the address, tag or payload of a wire frame: the frame is rejected and the next one is not lost, for a
table whose entries differ. -/
def Obligations.FlippedBitIsRejectedAndTheNextFrameKept : Prop :=
  ∀ (s : State) (F V : List Byte) (k j : Nat), ReadyInSeek s → s.params.layout.wf = true →
    Function.Injective (tableAt s.params.crc8Table) → StoredFrame F → StoredFrame V →
    2 ≤ k → k < F.length → j < 8 →
    ∃ t e, feed (F.set k (byteAt F k ^^^ (1#8 <<< j)) ++ [crc8 s.params.crc8Table (F.drop 1)] ++
        wireFrame s.params.crc8Table V) s = .next t ∧ t.phase = .seek ∧
      t.events = s.events ++ [.crcMismatch (byteAt (F.set k (byteAt F k ^^^ (1#8 <<< j))) 2) (BitVec.ofNat 9 F.length),
        .frame V, e] ∧ e.ofDecoder

/-- R116, R124: a step that raises `Frame(F)` took a byte equal to the CRC of the bytes stored behind the marker; `F` is what the
buffer held, begins with the marker and has N + 4 bytes. -/
def Obligations.NoFrameWithoutItsCrc : Prop :=
  ∀ (s t : State) (F : List Byte), s.Inv → step s = .next t → .frame F ∈ t.events →
    ∃ during rest, s.inputs = .byte (crc8 s.params.crc8Table (F.drop 1)) during :: rest ∧ s.stopped = false ∧
      s.idx = s.expectedSize ∧ s.buf.slice 0 s.expectedSize.toNat = some F ∧ StoredFrame F ∧ t.events.count (.frame F) = 1

/-! ### Events, and who writes what -/

/-- R199, R194: the events of a step are none, or one CRC mismatch, or a frame and then exactly one event of the decoder. -/
def Obligations.EventsOfAStepComeInThisOrder : Prop :=
  ∀ s t : State, step s = .next t →
    t.events = [] ∨ (∃ addr size, t.events = [.crcMismatch addr size]) ∨
    ∃ F e, t.events = [.frame F, e] ∧ e.ofDecoder

/-- R165, R29: a slot changes only by RESET, or in the step that commits a record of the slot's own variant. -/
def Obligations.OnlyResetOrItsOwnRecordWritesASlot : Prop :=
  ∀ (s t : State) (n : SlotName), step s = .next t → t.store.get n ≠ s.store.get n →
    (∃ rest, s.inputs = .reset :: rest) ∨ ∃ F, t.events = [.frame F, .record n.variant]

/-- R37: `fresh` rises only with a Telemetry record, and with each of them. -/
def Obligations.FreshRisesExactlyWithATelemetryRecord : Prop :=
  ∀ s t : State, step s = .next t →
    (s.fresh = false → (t.fresh = true ↔ ∃ F, t.events = [.frame F, .record .telemetry])) ∧
    (.record .telemetry ∈ t.events → t.fresh = true)

/-- R30: once valid, a slot stays valid but for RESET. -/
def Obligations.ValidSlotStaysValidUntilReset : Prop :=
  ∀ (s t : State) (n : SlotName), step s = .next t → (s.store.get n).1 = true →
    (∀ rest, s.inputs ≠ .reset :: rest) → (t.store.get n).1 = true

/-- R41, R44: no step writes the table or the layout. -/
def Obligations.ParametersAreNeverWritten : Prop :=
  ∀ s t : State, step s = .next t → t.params = s.params

/-! ### The instructions: what each commits, and that it completes -/

/-- R160: the 14 Telemetry slots, then `fresh`, whatever the interleaving of the commit. -/
def Obligations.TelemetryCommitsItsRecordAndSetsFresh : Prop :=
  ∀ (s : State) (addr : Byte) (o x y z : Word32) (vx vy vz mv : BitVec 16) (bc st pe : Byte) (extra : List Byte),
    ∃ t, exec (.telemetry addr o x y z vx vy vz mv bc st pe extra) s = .next t ∧
      t.store.read .address = some (addr.toNat : Int) ∧
      t.store.read .rollMrad = some (roll (o.toNat % 2048) : Int) ∧
      t.store.read .pitchMrad = some (pitch (o.toNat / 2048 % 1024) : Int) ∧
      t.store.read .yawMrad = some (yaw (o.toNat / 2097152) : Int) ∧
      t.store.read .posX = some x.toInt ∧ t.store.read .posY = some y.toInt ∧ t.store.read .posZ = some z.toInt ∧
      t.store.read .velX = some vx.toInt ∧ t.store.read .velY = some vy.toInt ∧ t.store.read .velZ = some vz.toInt ∧
      t.store.read .voltageMv = some (mv.toNat : Int) ∧ t.store.read .beacons = some (bc.toNat : Int) ∧
      t.store.read .status = some (st.toNat : Int) ∧ t.store.read .posErr = some (pe.toNat : Int) ∧
      t.fresh = true ∧ t.events = s.events ++ [.record .telemetry] ∧
      OtherSlotsKept .telemetry s t ∧ SameControl s t ∧ RepliesAppended s t

/-- R161: the five SysStatus slots, nothing else; `fresh` and `address` as before but for a take. -/
def Obligations.SysStatusCommitsItsRecord : Prop :=
  ∀ (s : State) (addr : Byte) (ident cfg log cap size : Word32),
    ∃ t, exec (.sysStatus addr ident cfg log cap size) s = .next t ∧
      t.store.read .sysIdentifier = some (ident.toNat : Int) ∧ t.store.read .sysConfigStatus = some (cfg.toNat : Int) ∧
      t.store.read .sysLogStatus = some (log.toNat : Int) ∧ t.store.read .sysLoggerCapacity = some (cap.toNat : Int) ∧
      t.store.read .sysLogSize = some (size.toNat : Int) ∧
      t.fresh = freshAfter (consumerOps s.sched) s.fresh ∧ t.events = s.events ++ [.record .sysStatus] ∧
      OtherSlotsKept .sysStatus s t ∧ SameControl s t ∧ RepliesAppended s t

/-- R162: the seven Info slots, nothing else; `fresh` and `address` as before but for a take. -/
def Obligations.InfoCommitsItsRecord : Prop :=
  ∀ (s : State) (addr : Byte) (hw fwt fwv pmin pmaj hash : Word32) (cnt : BitVec 16) (extra : List Byte),
    ∃ t, exec (.info addr hw fwt fwv pmin pmaj hash cnt extra) s = .next t ∧
      t.store.read .hwId = some (hw.toNat : Int) ∧ t.store.read .fwType = some (fwt.toNat : Int) ∧
      t.store.read .fwVersion = some (fwv.toNat : Int) ∧ t.store.read .protoMinor = some (pmin.toNat : Int) ∧
      t.store.read .protoMajor = some (pmaj.toNat : Int) ∧ t.store.read .commitHash = some (hash.toNat : Int) ∧
      t.store.read .commitCount = some (cnt.toNat : Int) ∧
      t.fresh = freshAfter (consumerOps s.sched) s.fresh ∧ t.events = s.events ++ [.record .info] ∧
      OtherSlotsKept .info s t ∧ SameControl s t ∧ RepliesAppended s t

/-- R163: the three RawAccel slots, nothing else; `fresh` and `address` as before but for a take. -/
def Obligations.RawAccelCommitsItsRecord : Prop :=
  ∀ (s : State) (addr : Byte) (x y z : BitVec 16) (extra : List Byte),
    ∃ t, exec (.rawAccel addr x y z extra) s = .next t ∧
      t.store.read .accX = some x.toInt ∧ t.store.read .accY = some y.toInt ∧ t.store.read .accZ = some z.toInt ∧
      t.fresh = freshAfter (consumerOps s.sched) s.fresh ∧ t.events = s.events ++ [.record .rawAccel] ∧
      OtherSlotsKept .rawAccel s t ∧ SameControl s t ∧ RepliesAppended s t

/-- R164: the four Strength slots, nothing else; `fresh` and `address` as before but for a take. -/
def Obligations.StrengthCommitsItsRecord : Prop :=
  ∀ (s : State) (addr : Byte) (l0 l1 l2 l3 : BitVec 16),
    ∃ t, exec (.strength addr l0 l1 l2 l3) s = .next t ∧
      t.store.read .lvl0 = some l0.toInt ∧ t.store.read .lvl1 = some l1.toInt ∧
      t.store.read .lvl2 = some l2.toInt ∧ t.store.read .lvl3 = some l3.toInt ∧
      t.fresh = freshAfter (consumerOps s.sched) s.fresh ∧ t.events = s.events ++ [.record .strength] ∧
      OtherSlotsKept .strength s t ∧ SameControl s t ∧ RepliesAppended s t

/-- R137: an unrecognized frame writes no slot and raises its reason with the tag and the stored length. -/
def Obligations.UnrecognizedWritesNothingAndSaysWhy : Prop :=
  ∀ (s : State) (addr tag : Byte) (payload : List Byte) (why : Reason),
    ∃ t, exec (.unrecognized why addr tag payload) s = .next t ∧ SameStore s t ∧
      t.fresh = freshAfter (consumerOps s.sched) s.fresh ∧
      (why = .unrecognizedTag → t.events = s.events ++ [.unrecognizedTag tag (payload.length + 4)]) ∧
      (why = .lengthMismatch → t.events = s.events ++ [.lengthMismatch tag (payload.length + 4)]) ∧
      (why = .shortFrame → t.events = s.events ++ [.shortFrame tag (payload.length + 4)]) ∧
      SameControl s t ∧ RepliesAppended s t

/-! ### Frames, from the buffer to the slots -/

/-- R132: a Telemetry frame about to be emitted, byte by byte under the default layout (decisions D6, D7; log entry 11), to the slots.
That every frame of the minimum length or more is taken, its extra bytes ignored, is decision D8 (R83, R85; log entry 16). -/
def Obligations.TelemetryFrameReachesItsSlots : Prop :=
  ∀ (s : State) (F : List Byte) (during : List SchedItem) (rest : List Input),
    AboutToEmit s F during rest → s.params.layout = Layout.default → byteAt F 3 = 0x02#8 → 31 ≤ F.length →
    ∃ t, step s = .next t ∧ t.events = [.frame F, .record .telemetry] ∧ t.fresh = true ∧
      t.store.read .address = some ((byteAt F 2).toNat : Int) ∧
      t.store.read .rollMrad = some (roll ((wordAt F 4).toNat % 2048) : Int) ∧
      t.store.read .pitchMrad = some (pitch ((wordAt F 4).toNat / 2048 % 1024) : Int) ∧
      t.store.read .yawMrad = some (yaw ((wordAt F 4).toNat / 2097152) : Int) ∧
      t.store.read .posX = some (wordAt F 8).toInt ∧ t.store.read .posY = some (wordAt F 12).toInt ∧
      t.store.read .posZ = some (wordAt F 16).toInt ∧
      t.store.read .velX = some (halfAt F 20).toInt ∧ t.store.read .velY = some (halfAt F 22).toInt ∧
      t.store.read .velZ = some (halfAt F 24).toInt ∧
      t.store.read .voltageMv = some ((halfAt F 26).toNat : Int) ∧ t.store.read .beacons = some ((byteAt F 28).toNat : Int) ∧
      t.store.read .status = some ((byteAt F 29).toNat : Int) ∧ t.store.read .posErr = some ((byteAt F 30).toNat : Int) ∧
      OtherSlotsKept .telemetry s t ∧ SameControl (s.emitted F during rest) t

/-- R133, R75: a SysStatus frame about to be emitted, under every well-formed layout: each slot is the unsigned field, read
little-endian by decision D7 (R52; log entry 11). -/
def Obligations.SysStatusFrameReachesItsSlots : Prop :=
  ∀ (s : State) (F : List Byte) (during : List SchedItem) (rest : List Input),
    AboutToEmit s F during rest → s.params.layout.wf = true → byteAt F 3 = 0x08#8 → F.length = 16 →
    ∃ t, step s = .next t ∧ t.events = [.frame F, .record .sysStatus] ∧
      t.store.read .sysIdentifier = some ((unsignedAt F s.params.layout.sysIdentifier).toNat : Int) ∧
      t.store.read .sysConfigStatus = some ((unsignedAt F s.params.layout.sysConfigStatus).toNat : Int) ∧
      t.store.read .sysLogStatus = some ((unsignedAt F s.params.layout.sysLogStatus).toNat : Int) ∧
      t.store.read .sysLoggerCapacity = some ((unsignedAt F s.params.layout.sysLoggerCapacity).toNat : Int) ∧
      t.store.read .sysLogSize = some ((unsignedAt F s.params.layout.sysLogSize).toNat : Int) ∧
      t.fresh = freshAfter (consumerOps during) s.fresh ∧ OtherSlotsKept .sysStatus s t ∧
      SameControl (s.emitted F during rest) t

/-- R134, R75: an Info frame about to be emitted, under every well-formed layout: each slot is the unsigned field, read
little-endian by decision D7 (R52; log entry 11). The minimum length, and that a longer frame is taken, are decision D8 (log
entry 16). -/
def Obligations.InfoFrameReachesItsSlots : Prop :=
  ∀ (s : State) (F : List Byte) (during : List SchedItem) (rest : List Input),
    AboutToEmit s F during rest → s.params.layout.wf = true → byteAt F 3 = 0x18#8 →
    s.params.layout.minLen .info ≤ F.length →
    ∃ t, step s = .next t ∧ t.events = [.frame F, .record .info] ∧
      t.store.read .hwId = some ((unsignedAt F s.params.layout.hwId).toNat : Int) ∧
      t.store.read .fwType = some ((unsignedAt F s.params.layout.fwType).toNat : Int) ∧
      t.store.read .fwVersion = some ((unsignedAt F s.params.layout.fwVersion).toNat : Int) ∧
      t.store.read .protoMinor = some ((unsignedAt F s.params.layout.protoMinor).toNat : Int) ∧
      t.store.read .protoMajor = some ((unsignedAt F s.params.layout.protoMajor).toNat : Int) ∧
      t.store.read .commitHash = some ((wordAt F s.params.layout.commitHash.offset).toNat : Int) ∧
      t.store.read .commitCount = some ((halfAt F s.params.layout.commitCount.offset).toNat : Int) ∧
      t.fresh = freshAfter (consumerOps during) s.fresh ∧ OtherSlotsKept .info s t ∧
      SameControl (s.emitted F during rest) t

/-- R135: a RawAccel frame about to be emitted, byte by byte under the default layout (decisions D6, D7; log entry 11), to the slots.
That every frame of the minimum length or more is taken, its extra bytes ignored, is decision D8 (R83, R85; log entry 16). -/
def Obligations.RawAccelFrameReachesItsSlots : Prop :=
  ∀ (s : State) (F : List Byte) (during : List SchedItem) (rest : List Input),
    AboutToEmit s F during rest → s.params.layout = Layout.default → byteAt F 3 = 0x1D#8 → 10 ≤ F.length →
    ∃ t, step s = .next t ∧ t.events = [.frame F, .record .rawAccel] ∧
      t.store.read .accX = some (halfAt F 4).toInt ∧ t.store.read .accY = some (halfAt F 6).toInt ∧
      t.store.read .accZ = some (halfAt F 8).toInt ∧
      t.fresh = freshAfter (consumerOps during) s.fresh ∧ OtherSlotsKept .rawAccel s t ∧
      SameControl (s.emitted F during rest) t

/-- R136: a Strength frame about to be emitted, byte by byte under the default layout (decisions D6, D7; log entry 11), to the
slots. -/
def Obligations.StrengthFrameReachesItsSlots : Prop :=
  ∀ (s : State) (F : List Byte) (during : List SchedItem) (rest : List Input),
    AboutToEmit s F during rest → s.params.layout = Layout.default → byteAt F 3 = 0x33#8 → F.length = 12 →
    ∃ t, step s = .next t ∧ t.events = [.frame F, .record .strength] ∧
      t.store.read .lvl0 = some (halfAt F 4).toInt ∧ t.store.read .lvl1 = some (halfAt F 6).toInt ∧
      t.store.read .lvl2 = some (halfAt F 8).toInt ∧ t.store.read .lvl3 = some (halfAt F 10).toInt ∧
      t.fresh = freshAfter (consumerOps during) s.fresh ∧ OtherSlotsKept .strength s t ∧
      SameControl (s.emitted F during rest) t

/-- R137, R85: a frame with a tag of no variant, or with a length its variant does not take, writes no slot. That an ungated variant
too short for its fields is ignored is the spec's decision D8, not its source's (log entry 16). -/
def Obligations.IgnoredFrameWritesNoSlot : Prop :=
  ∀ (s : State) (F : List Byte) (during : List SchedItem) (rest : List Input),
    AboutToEmit s F during rest → s.params.layout = Layout.default → 4 ≤ F.length →
    (byteAt F 3 ∉ [0x02#8, 0x08#8, 0x18#8, 0x1D#8, 0x33#8] →
      ∃ t, step s = .next t ∧ t.events = [.frame F, .unrecognizedTag (byteAt F 3) F.length] ∧ SameStore s t ∧
        t.fresh = freshAfter (consumerOps during) s.fresh ∧ SameControl (s.emitted F during rest) t) ∧
    ((byteAt F 3 = 0x08#8 ∧ F.length ≠ 16) ∨ (byteAt F 3 = 0x33#8 ∧ F.length ≠ 12) →
      ∃ t, step s = .next t ∧ t.events = [.frame F, .lengthMismatch (byteAt F 3) F.length] ∧ SameStore s t ∧
        t.fresh = freshAfter (consumerOps during) s.fresh ∧ SameControl (s.emitted F during rest) t) ∧
    ((byteAt F 3 = 0x02#8 ∧ F.length < 31) ∨ (byteAt F 3 = 0x18#8 ∧ F.length < 15) ∨
        (byteAt F 3 = 0x1D#8 ∧ F.length < 10) →
      ∃ t, step s = .next t ∧ t.events = [.frame F, .shortFrame (byteAt F 3) F.length] ∧ SameStore s t ∧
        t.fresh = freshAfter (consumerOps during) s.fresh ∧ SameControl (s.emitted F during rest) t)

/-! ### Encoding -/

/-- Words of opcode_table.json and frames of 95_test_vectors.md, read by the decoder, under the default layout (log entry 11).
That the short TELEMETRY frame is one is decision D8 (log entry 16). -/
def Obligations.SampleFramesDecode : Prop :=
  decodeTableWord 32 0x330708FE = some (.strength 7 0 0 0 0) ∧
  decodeTableWord 32 0x08070CFE = some (.sysStatus 7 0 0 0 0 0) ∧
  decodeTableWord 32 0x020708FE = some (.unrecognized .shortFrame 7 0x02 [0, 0, 0, 0, 0, 0, 0, 0]) ∧
  decode Layout.default [0xFE, 0x06, 0x05, 0x1D, 0x64, 0x00, 0x38, 0xFF, 0x00, 0x40] =
    .ok (.rawAccel 5 100 0xFF38 16384 []) ∧
  decode Layout.default [0xFE, 0x0B, 0x07, 0x18, 0x03, 0x01, 0x2A, 0x04, 0x01, 0xEF, 0xBE, 0xAD, 0xDE, 0x01, 0x02] =
    .ok (.info 7 3 1 42 4 1 0xDEADBEEF 513 []) ∧
  decode Layout.default [0xFE, 0x00, 0x09, 0x99] = .ok (.unrecognized .unrecognizedTag 9 0x99 [])

/-- R83: the complete dispatch map, under the default layout. The three minimum lengths are the spec's decision D8 (log entries 11,
16). -/
def Obligations.DispatchIsOnTagThenLength : Prop :=
  ∀ (tag : Byte) (len : Nat),
    (selectVariant Layout.default tag len = .ok .telemetry ↔ tag = 0x02#8 ∧ 31 ≤ len) ∧
    (selectVariant Layout.default tag len = .ok .sysStatus ↔ tag = 0x08#8 ∧ len = 16) ∧
    (selectVariant Layout.default tag len = .ok .info ↔ tag = 0x18#8 ∧ 15 ≤ len) ∧
    (selectVariant Layout.default tag len = .ok .rawAccel ↔ tag = 0x1D#8 ∧ 10 ≤ len) ∧
    (selectVariant Layout.default tag len = .ok .strength ↔ tag = 0x33#8 ∧ len = 12) ∧
    (selectVariant Layout.default tag len = .error .shortFrame ↔
      (tag = 0x02#8 ∧ len < 31) ∨ (tag = 0x18#8 ∧ len < 15) ∨ (tag = 0x1D#8 ∧ len < 10)) ∧
    (selectVariant Layout.default tag len = .error .lengthMismatch ↔
      (tag = 0x08#8 ∧ len ≠ 16) ∨ (tag = 0x33#8 ∧ len ≠ 12)) ∧
    (selectVariant Layout.default tag len = .error .unrecognizedTag ↔ tag ∉ [0x02#8, 0x08#8, 0x18#8, 0x1D#8, 0x33#8])

/-- R84, R90: the first row of the opcode table that takes a header is the variant that dispatch on tag and length selects under the
default layout (log entry 11); the last row takes every other header. The minimum sizes are decision D8 (log entry 16). -/
def Obligations.OpcodeTableAgreesWithDispatch : Prop :=
  ∀ n addr tag : Byte,
    ∃ row, selectRow (headerWord startMarker n addr tag) opcodeRows = some row ∧
      row.variant =
        match selectVariant Layout.default tag (n.toNat + 4) with
        | .ok v    => some v
        | .error _ => none

/-- R70, R75, R89: under every well-formed layout the decoder reads from the encoding of a well-formed instruction that
instruction, every operand of it. -/
def Obligations.DecodeOfEncodeIsTheInstruction : Prop :=
  ∀ (L : Layout) (i : Instr), L.wf = true → i.wf L = true → decode L (encode L i) = .ok i

/-- R70, R76 to R80: under the default layout, which leaves no gap, what the decoder reads from any bytes is well-formed and encodes
to those bytes. -/
def Obligations.EncodeOfDecodeIsTheFrame : Prop :=
  ∀ (F : List Byte) (i : Instr), decode Layout.default F = .ok i →
    i.wf Layout.default = true ∧ encode Layout.default i = F

/-- R81: the three packed fields, byte by byte. -/
def Obligations.OrientationFieldsTileTheWord : Prop :=
  ∀ b4 b5 b6 b7 : Byte,
    (rollField (b7 ++ b6 ++ b5 ++ b4)).toNat = b4.toNat + 256 * (b5.toNat % 8) ∧
    (pitchField (b7 ++ b6 ++ b5 ++ b4)).toNat = b5.toNat / 8 + 32 * (b6.toNat % 32) ∧
    (yawField (b7 ++ b6 ++ b5 ++ b4)).toNat = b6.toNat / 32 + 8 * b7.toNat

/-- From the wire to the slots: from SEEK, the wire bytes of a well-formed instruction run it. -/
def Obligations.WireBytesOfAnInstructionRunIt : Prop :=
  ∀ (s : State) (i : Instr), ReadyInSeek s → s.params.layout.wf = true → i.wf s.params.layout = true →
    ∃ u, feed (encodeWire s.params.crc8Table s.params.layout i) s = exec i u ∧
      u.idx = 0 ∧ u.buf.slice 0 (encode s.params.layout i).length = some (encode s.params.layout i) ∧
      u.events = s.events ++ [.frame (encode s.params.layout i)] ∧ u.store = s.store ∧ u.fresh = s.fresh ∧
      u.stopped = false ∧ u.params = s.params ∧ u.inputs = s.inputs ∧ u.replies = s.replies ∧ u.sched = []

/-- The word placed by `withFetchWord` is the instruction that the next step runs: how the model is given a word (log entry 5), not a
rule of the spec. -/
def Obligations.NextStepRunsThePlacedWord : Prop :=
  ∀ (s : State) (nbits w : Nat) (i : Instr), decodeTableWord nbits w = some i →
    step (s.withFetchWord nbits w) = exec i ((s.withFetchWord nbits w).emitted (tableBytes nbits w) [] s.inputs)

/-! ### The CRC -/

/-- R102: the empty sequence gives 0, and one more byte is one more table lookup, for every table. -/
def Obligations.CrcIsComputedByteByByte : Prop :=
  ∀ (T : Vector Byte 256) (s t : List Byte) (b : Byte),
    crc8 T [] = 0#8 ∧ crc8 T (s ++ [b]) = T.get (crc8 T s ^^^ b).toFin ∧
    ∀ s', crc8 T s' = crc8 T s → crc8 T (s' ++ t) = crc8 T (s ++ t)

/-! ### The angles -/

/-- R141: the stored angle is the integer nearest to the real angle in milliradians, for every field value. -/
def Obligations.AnglesAreTheNearestMilliradian : Prop :=
  (∀ k : Nat, k < 2048 → |1000 * (k : ℝ) * Real.pi / 1024 - (roll k : ℝ)| < 1 / 2) ∧
  (∀ k : Nat, k < 1024 → |1000 * (k : ℝ) * Real.pi / 1024 - (pitch k : ℝ)| < 1 / 2) ∧
  (∀ k : Nat, k < 2048 → |1000 * (k : ℝ) * Real.pi / 102 - (yaw k : ℝ)| < 1 / 2)

/-- R144, R181: the three functions increase strictly, pitch agrees with roll, and the last entries are the ranges' ends. -/
def Obligations.AnglesIncreaseStrictly : Prop :=
  (∀ j k : Nat, j < k → k < 2048 → roll j < roll k ∧ yaw j < yaw k) ∧
  (∀ k : Nat, k < 1024 → pitch k = roll k) ∧
  roll 2047 = 6280 ∧ pitch 1023 = 3139 ∧ yaw 2047 = 63047

/-! ### Commits and the consumer -/

/-- R58, R61: a consumer that acts inside the step of an instruction sees of each slot the value before the commit or the value
after it; and its takes see `fresh` as it was before, since `fresh <- 1` comes last. -/
def Obligations.ConsumerInsideACommitSeesOldOrNew : Prop :=
  ∀ (i : Instr) (s t : State), exec i s = .next t →
    ∃ rs, t.replies = s.replies ++ rs ∧ rs.length = (consumerOps s.sched).length ∧
      ∀ (k : Nat) (r : Reply), rs[k]? = some r →
        (∀ n, (consumerOps s.sched)[k]? = some (.read n) →
          r = .value n (s.store.read n) ∨ r = .value n (t.store.read n)) ∧
        ((consumerOps s.sched)[k]? = some .takeIfFresh →
          r = .took (freshAfter ((consumerOps s.sched).take k) s.fresh))

/-- R61: a consumer that has seen the new value of a slot does not see the old one again. -/
def Obligations.NewSlotValueIsNotUnseen : Prop :=
  ∀ (i : Instr) (s t : State) (rs : List Reply) (n : SlotName) (j k : Nat), exec i s = .next t →
    t.replies = s.replies ++ rs → j < k →
    (consumerOps s.sched)[j]? = some (.read n) → (consumerOps s.sched)[k]? = some (.read n) →
    rs[j]? ≠ some (.value n (s.store.read n)) → rs[k]? = some (.value n (t.store.read n))

/-- R58, R62 (U5; log entry 8): the model admits every order of a commit's slot writes with consumer operations anywhere between them. -/
def Obligations.EveryInterleavingOfACommitIsAdmitted : Prop :=
  ∀ (s : State) (ws : List SlotWrite) (acts : List (SlotWrite ⊕ ConsumerOp)),
    (acts.filterMap Sum.getLeft?).Perm ws →
    ∃ items, consumerOps items = acts.filterMap Sum.getRight? ∧
      runSchedule items ws s = acts.foldl (fun u a => a.elim u.writeSlot u.consume) s

/-! ### The invariant -/

/-- R25, R221: the state after reset meets the invariant, and every slot is in its range (R20). -/
def Obligations.ResetMeetsTheInvariant : Prop := State.reset.Inv ∧ State.reset.SlotsInRange

/-- R25: every step keeps the invariant, from every state that meets it. -/
def Obligations.EveryStepKeepsTheInvariant : Prop :=
  ∀ s t : State, s.Inv → step s = .next t → t.Inv

/-- R197: under the invariant every step answers a next state: the block cannot fault. -/
def Obligations.EveryStepSucceedsUnderTheInvariant : Prop :=
  ∀ s : State, s.Inv → ∃ t, step s = .next t

/-- R20, R32, R34, R35: every step keeps the ranges of the slots. -/
def Obligations.EveryStepKeepsTheSlotRanges : Prop :=
  ∀ s t : State, s.params.layout.wf = true → s.SlotsInRange → step s = .next t → t.SlotsInRange

/-- R221, R25: what the spec leaves unspecified is never read: from two states that differ only in it, a step gives two states that
differ only in it, with the same events and the same replies. -/
def Obligations.UnspecifiedValuesAreNeverSeen : Prop :=
  ∀ s s' t : State, s.Inv → Alike s s' → step s = .next t → ∃ t', step s' = .next t' ∧ Alike t t'
end

