-- ==== Sys2Proof/Laws/State.lean ====
section
/-! SUPPORT. One lemma per field of State per update, true by rfl, so that no proof unfolds a record update. -/

namespace Sys2Proof.Machine

section
variable (s : State)
@[simp] theorem State.setFresh_idx : (s.setFresh).idx = s.idx := rfl
@[simp] theorem State.setFresh_expectedSize : (s.setFresh).expectedSize = s.expectedSize := rfl
@[simp] theorem State.setFresh_buf : (s.setFresh).buf = s.buf := rfl
@[simp] theorem State.setFresh_store : (s.setFresh).store = s.store := rfl
@[simp] theorem State.setFresh_fresh : (s.setFresh).fresh = true := rfl
@[simp] theorem State.setFresh_stopped : (s.setFresh).stopped = s.stopped := rfl
@[simp] theorem State.setFresh_params : (s.setFresh).params = s.params := rfl
@[simp] theorem State.setFresh_inputs : (s.setFresh).inputs = s.inputs := rfl
@[simp] theorem State.setFresh_sched : (s.setFresh).sched = s.sched := rfl
@[simp] theorem State.setFresh_events : (s.setFresh).events = s.events := rfl
@[simp] theorem State.setFresh_replies : (s.setFresh).replies = s.replies := rfl

@[simp] theorem State.clearFresh_idx : (s.clearFresh).idx = s.idx := rfl
@[simp] theorem State.clearFresh_expectedSize : (s.clearFresh).expectedSize = s.expectedSize := rfl
@[simp] theorem State.clearFresh_buf : (s.clearFresh).buf = s.buf := rfl
@[simp] theorem State.clearFresh_store : (s.clearFresh).store = s.store := rfl
@[simp] theorem State.clearFresh_fresh : (s.clearFresh).fresh = false := rfl
@[simp] theorem State.clearFresh_stopped : (s.clearFresh).stopped = s.stopped := rfl
@[simp] theorem State.clearFresh_params : (s.clearFresh).params = s.params := rfl
@[simp] theorem State.clearFresh_inputs : (s.clearFresh).inputs = s.inputs := rfl
@[simp] theorem State.clearFresh_sched : (s.clearFresh).sched = s.sched := rfl
@[simp] theorem State.clearFresh_events : (s.clearFresh).events = s.events := rfl
@[simp] theorem State.clearFresh_replies : (s.clearFresh).replies = s.replies := rfl

@[simp] theorem State.setStopped_idx : (s.setStopped).idx = s.idx := rfl
@[simp] theorem State.setStopped_expectedSize : (s.setStopped).expectedSize = s.expectedSize := rfl
@[simp] theorem State.setStopped_buf : (s.setStopped).buf = s.buf := rfl
@[simp] theorem State.setStopped_store : (s.setStopped).store = s.store := rfl
@[simp] theorem State.setStopped_fresh : (s.setStopped).fresh = s.fresh := rfl
@[simp] theorem State.setStopped_stopped : (s.setStopped).stopped = true := rfl
@[simp] theorem State.setStopped_params : (s.setStopped).params = s.params := rfl
@[simp] theorem State.setStopped_inputs : (s.setStopped).inputs = s.inputs := rfl
@[simp] theorem State.setStopped_sched : (s.setStopped).sched = s.sched := rfl
@[simp] theorem State.setStopped_events : (s.setStopped).events = s.events := rfl
@[simp] theorem State.setStopped_replies : (s.setStopped).replies = s.replies := rfl

@[simp] theorem State.raise_idx (e : Event) : (s.raise e).idx = s.idx := rfl
@[simp] theorem State.raise_expectedSize (e : Event) : (s.raise e).expectedSize = s.expectedSize := rfl
@[simp] theorem State.raise_buf (e : Event) : (s.raise e).buf = s.buf := rfl
@[simp] theorem State.raise_store (e : Event) : (s.raise e).store = s.store := rfl
@[simp] theorem State.raise_fresh (e : Event) : (s.raise e).fresh = s.fresh := rfl
@[simp] theorem State.raise_stopped (e : Event) : (s.raise e).stopped = s.stopped := rfl
@[simp] theorem State.raise_params (e : Event) : (s.raise e).params = s.params := rfl
@[simp] theorem State.raise_inputs (e : Event) : (s.raise e).inputs = s.inputs := rfl
@[simp] theorem State.raise_sched (e : Event) : (s.raise e).sched = s.sched := rfl
@[simp] theorem State.raise_events (e : Event) : (s.raise e).events = s.events ++ [e] := rfl
@[simp] theorem State.raise_replies (e : Event) : (s.raise e).replies = s.replies := rfl

@[simp] theorem State.writeSlot_idx (w : SlotWrite) : (s.writeSlot w).idx = s.idx := rfl
@[simp] theorem State.writeSlot_expectedSize (w : SlotWrite) : (s.writeSlot w).expectedSize = s.expectedSize := rfl
@[simp] theorem State.writeSlot_buf (w : SlotWrite) : (s.writeSlot w).buf = s.buf := rfl
@[simp] theorem State.writeSlot_store (w : SlotWrite) : (s.writeSlot w).store = s.store.write w.slot w.value := rfl
@[simp] theorem State.writeSlot_fresh (w : SlotWrite) : (s.writeSlot w).fresh = s.fresh := rfl
@[simp] theorem State.writeSlot_stopped (w : SlotWrite) : (s.writeSlot w).stopped = s.stopped := rfl
@[simp] theorem State.writeSlot_params (w : SlotWrite) : (s.writeSlot w).params = s.params := rfl
@[simp] theorem State.writeSlot_inputs (w : SlotWrite) : (s.writeSlot w).inputs = s.inputs := rfl
@[simp] theorem State.writeSlot_sched (w : SlotWrite) : (s.writeSlot w).sched = s.sched := rfl
@[simp] theorem State.writeSlot_events (w : SlotWrite) : (s.writeSlot w).events = s.events := rfl
@[simp] theorem State.writeSlot_replies (w : SlotWrite) : (s.writeSlot w).replies = s.replies := rfl

@[simp] theorem State.size_idx (b : Byte) : (s.size b).idx = 2 := rfl
@[simp] theorem State.size_expectedSize (b : Byte) : (s.size b).expectedSize = b.setWidth 9 + 4 := rfl
@[simp] theorem State.size_buf (b : Byte) : (s.size b).buf = s.buf.write 1 b := rfl
@[simp] theorem State.size_store (b : Byte) : (s.size b).store = s.store := rfl
@[simp] theorem State.size_fresh (b : Byte) : (s.size b).fresh = s.fresh := rfl
@[simp] theorem State.size_stopped (b : Byte) : (s.size b).stopped = s.stopped := rfl
@[simp] theorem State.size_params (b : Byte) : (s.size b).params = s.params := rfl
@[simp] theorem State.size_inputs (b : Byte) : (s.size b).inputs = s.inputs := rfl
@[simp] theorem State.size_sched (b : Byte) : (s.size b).sched = s.sched := rfl
@[simp] theorem State.size_events (b : Byte) : (s.size b).events = s.events := rfl
@[simp] theorem State.size_replies (b : Byte) : (s.size b).replies = s.replies := rfl

@[simp] theorem State.fill_idx (b : Byte) : (s.fill b).idx = s.idx + 1 := rfl
@[simp] theorem State.fill_expectedSize (b : Byte) : (s.fill b).expectedSize = s.expectedSize := rfl
@[simp] theorem State.fill_buf (b : Byte) : (s.fill b).buf = s.buf.write s.idx.toNat b := rfl
@[simp] theorem State.fill_store (b : Byte) : (s.fill b).store = s.store := rfl
@[simp] theorem State.fill_fresh (b : Byte) : (s.fill b).fresh = s.fresh := rfl
@[simp] theorem State.fill_stopped (b : Byte) : (s.fill b).stopped = s.stopped := rfl
@[simp] theorem State.fill_params (b : Byte) : (s.fill b).params = s.params := rfl
@[simp] theorem State.fill_inputs (b : Byte) : (s.fill b).inputs = s.inputs := rfl
@[simp] theorem State.fill_sched (b : Byte) : (s.fill b).sched = s.sched := rfl
@[simp] theorem State.fill_events (b : Byte) : (s.fill b).events = s.events := rfl
@[simp] theorem State.fill_replies (b : Byte) : (s.fill b).replies = s.replies := rfl

@[simp] theorem State.reject_idx (a : Byte) : (s.reject a).idx = 0 := rfl
@[simp] theorem State.reject_expectedSize (a : Byte) : (s.reject a).expectedSize = s.expectedSize := rfl
@[simp] theorem State.reject_buf (a : Byte) : (s.reject a).buf = s.buf := rfl
@[simp] theorem State.reject_store (a : Byte) : (s.reject a).store = s.store := rfl
@[simp] theorem State.reject_fresh (a : Byte) : (s.reject a).fresh = s.fresh := rfl
@[simp] theorem State.reject_stopped (a : Byte) : (s.reject a).stopped = s.stopped := rfl
@[simp] theorem State.reject_params (a : Byte) : (s.reject a).params = s.params := rfl
@[simp] theorem State.reject_inputs (a : Byte) : (s.reject a).inputs = s.inputs := rfl
@[simp] theorem State.reject_sched (a : Byte) : (s.reject a).sched = s.sched := rfl
@[simp] theorem State.reject_events (a : Byte) : (s.reject a).events = s.events ++ [.crcMismatch a s.expectedSize] := rfl
@[simp] theorem State.reject_replies (a : Byte) : (s.reject a).replies = s.replies := rfl

@[simp] theorem State.resetOp_idx : (s.resetOp).idx = 0 := rfl
@[simp] theorem State.resetOp_expectedSize : (s.resetOp).expectedSize = s.expectedSize := rfl
@[simp] theorem State.resetOp_buf : (s.resetOp).buf = s.buf := rfl
@[simp] theorem State.resetOp_store : (s.resetOp).store = s.store.invalidate := rfl
@[simp] theorem State.resetOp_fresh : (s.resetOp).fresh = false := rfl
@[simp] theorem State.resetOp_stopped : (s.resetOp).stopped = false := rfl
@[simp] theorem State.resetOp_params : (s.resetOp).params = s.params := rfl
@[simp] theorem State.resetOp_inputs : (s.resetOp).inputs = s.inputs := rfl
@[simp] theorem State.resetOp_sched : (s.resetOp).sched = s.sched := rfl
@[simp] theorem State.resetOp_events : (s.resetOp).events = s.events := rfl
@[simp] theorem State.resetOp_replies : (s.resetOp).replies = s.replies := rfl

@[simp] theorem State.syncRestart_idx : (s.syncRestart).idx = 0 := rfl
@[simp] theorem State.syncRestart_expectedSize : (s.syncRestart).expectedSize = s.expectedSize := rfl
@[simp] theorem State.syncRestart_buf : (s.syncRestart).buf = s.buf := rfl
@[simp] theorem State.syncRestart_store : (s.syncRestart).store = s.store := rfl
@[simp] theorem State.syncRestart_fresh : (s.syncRestart).fresh = s.fresh := rfl
@[simp] theorem State.syncRestart_stopped : (s.syncRestart).stopped = s.stopped := rfl
@[simp] theorem State.syncRestart_params : (s.syncRestart).params = s.params := rfl
@[simp] theorem State.syncRestart_inputs : (s.syncRestart).inputs = s.inputs := rfl
@[simp] theorem State.syncRestart_sched : (s.syncRestart).sched = s.sched := rfl
@[simp] theorem State.syncRestart_events : (s.syncRestart).events = s.events := rfl
@[simp] theorem State.syncRestart_replies : (s.syncRestart).replies = s.replies := rfl

@[simp] theorem State.begin_idx (rest : List Input) : (s.begin rest).idx = s.idx := rfl
@[simp] theorem State.begin_expectedSize (rest : List Input) : (s.begin rest).expectedSize = s.expectedSize := rfl
@[simp] theorem State.begin_buf (rest : List Input) : (s.begin rest).buf = s.buf := rfl
@[simp] theorem State.begin_store (rest : List Input) : (s.begin rest).store = s.store := rfl
@[simp] theorem State.begin_fresh (rest : List Input) : (s.begin rest).fresh = s.fresh := rfl
@[simp] theorem State.begin_stopped (rest : List Input) : (s.begin rest).stopped = s.stopped := rfl
@[simp] theorem State.begin_params (rest : List Input) : (s.begin rest).params = s.params := rfl
@[simp] theorem State.begin_inputs (rest : List Input) : (s.begin rest).inputs = rest := rfl
@[simp] theorem State.begin_sched (rest : List Input) : (s.begin rest).sched = s.sched := rfl
@[simp] theorem State.begin_events (rest : List Input) : (s.begin rest).events = [] := rfl
@[simp] theorem State.begin_replies (rest : List Input) : (s.begin rest).replies = [] := rfl

@[simp] theorem State.offer_idx (bs : List Byte) : (s.offer bs).idx = s.idx := rfl
@[simp] theorem State.offer_expectedSize (bs : List Byte) : (s.offer bs).expectedSize = s.expectedSize := rfl
@[simp] theorem State.offer_buf (bs : List Byte) : (s.offer bs).buf = s.buf := rfl
@[simp] theorem State.offer_store (bs : List Byte) : (s.offer bs).store = s.store := rfl
@[simp] theorem State.offer_fresh (bs : List Byte) : (s.offer bs).fresh = s.fresh := rfl
@[simp] theorem State.offer_stopped (bs : List Byte) : (s.offer bs).stopped = s.stopped := rfl
@[simp] theorem State.offer_params (bs : List Byte) : (s.offer bs).params = s.params := rfl
@[simp] theorem State.offer_inputs (bs : List Byte) : (s.offer bs).inputs = s.inputs ++ bs.map (fun b => .byte b []) := rfl
@[simp] theorem State.offer_sched (bs : List Byte) : (s.offer bs).sched = s.sched := rfl
@[simp] theorem State.offer_events (bs : List Byte) : (s.offer bs).events = s.events := rfl
@[simp] theorem State.offer_replies (bs : List Byte) : (s.offer bs).replies = s.replies := rfl

@[simp] theorem State.emitted_idx (F : List Byte) (during : List SchedItem) (rest : List Input) : (s.emitted F during rest).idx = 0 := rfl
@[simp] theorem State.emitted_expectedSize (F : List Byte) (during : List SchedItem) (rest : List Input) : (s.emitted F during rest).expectedSize = s.expectedSize := rfl
@[simp] theorem State.emitted_buf (F : List Byte) (during : List SchedItem) (rest : List Input) : (s.emitted F during rest).buf = s.buf := rfl
@[simp] theorem State.emitted_store (F : List Byte) (during : List SchedItem) (rest : List Input) : (s.emitted F during rest).store = s.store := rfl
@[simp] theorem State.emitted_fresh (F : List Byte) (during : List SchedItem) (rest : List Input) : (s.emitted F during rest).fresh = s.fresh := rfl
@[simp] theorem State.emitted_stopped (F : List Byte) (during : List SchedItem) (rest : List Input) : (s.emitted F during rest).stopped = s.stopped := rfl
@[simp] theorem State.emitted_params (F : List Byte) (during : List SchedItem) (rest : List Input) : (s.emitted F during rest).params = s.params := rfl
@[simp] theorem State.emitted_inputs (F : List Byte) (during : List SchedItem) (rest : List Input) : (s.emitted F during rest).inputs = rest := rfl
@[simp] theorem State.emitted_sched (F : List Byte) (during : List SchedItem) (rest : List Input) : (s.emitted F during rest).sched = during := rfl
@[simp] theorem State.emitted_events (F : List Byte) (during : List SchedItem) (rest : List Input) : (s.emitted F during rest).events = [.frame F] := rfl
@[simp] theorem State.emitted_replies (F : List Byte) (during : List SchedItem) (rest : List Input) : (s.emitted F during rest).replies = [] := rfl

@[simp] theorem State.consume_idx (op : ConsumerOp) : (s.consume op).idx = s.idx := by cases op <;> rfl
@[simp] theorem State.consume_expectedSize (op : ConsumerOp) : (s.consume op).expectedSize = s.expectedSize := by cases op <;> rfl
@[simp] theorem State.consume_buf (op : ConsumerOp) : (s.consume op).buf = s.buf := by cases op <;> rfl
@[simp] theorem State.consume_store (op : ConsumerOp) : (s.consume op).store = s.store := by cases op <;> rfl
@[simp] theorem State.consume_stopped (op : ConsumerOp) : (s.consume op).stopped = s.stopped := by cases op <;> rfl
@[simp] theorem State.consume_params (op : ConsumerOp) : (s.consume op).params = s.params := by cases op <;> rfl
@[simp] theorem State.consume_inputs (op : ConsumerOp) : (s.consume op).inputs = s.inputs := by cases op <;> rfl
@[simp] theorem State.consume_sched (op : ConsumerOp) : (s.consume op).sched = s.sched := by cases op <;> rfl
@[simp] theorem State.consume_events (op : ConsumerOp) : (s.consume op).events = s.events := by cases op <;> rfl

@[simp] theorem State.consume_replies (op : ConsumerOp) : (s.consume op).replies = s.replies ++ [s.answer op] := by
  cases op <;> rfl

theorem State.consume_fresh (op : ConsumerOp) : (s.consume op).fresh = freshAfter [op] s.fresh := by
  cases op <;> simp [State.consume, freshAfter, State.clearFresh]

@[simp] theorem State.seek_expectedSize (b : Byte) : (s.seek b).expectedSize = s.expectedSize := by unfold State.seek; split <;> rfl
@[simp] theorem State.seek_store (b : Byte) : (s.seek b).store = s.store := by unfold State.seek; split <;> rfl
@[simp] theorem State.seek_fresh (b : Byte) : (s.seek b).fresh = s.fresh := by unfold State.seek; split <;> rfl
@[simp] theorem State.seek_stopped (b : Byte) : (s.seek b).stopped = s.stopped := by unfold State.seek; split <;> rfl
@[simp] theorem State.seek_params (b : Byte) : (s.seek b).params = s.params := by unfold State.seek; split <;> rfl
@[simp] theorem State.seek_inputs (b : Byte) : (s.seek b).inputs = s.inputs := by unfold State.seek; split <;> rfl
@[simp] theorem State.seek_sched (b : Byte) : (s.seek b).sched = s.sched := by unfold State.seek; split <;> rfl
@[simp] theorem State.seek_events (b : Byte) : (s.seek b).events = s.events := by unfold State.seek; split <;> rfl
@[simp] theorem State.seek_replies (b : Byte) : (s.seek b).replies = s.replies := by unfold State.seek; split <;> rfl

theorem State.seek_of_ne {b : Byte} (h : b ≠ startMarker) : s.seek b = s := by simp [State.seek, h]

theorem State.seek_marker :
    s.seek startMarker = { s with buf := s.buf.write 0 startMarker, idx := 1 } := by simp [State.seek]

end

end Sys2Proof.Machine
end

