-- ==== Sys2Proof/Laws/Store.lean ====
section
/-! SUPPORT. The laws of the store: a slot reads as it was last written, and a write leaves every other slot alone. -/

namespace Sys2Proof.Machine

@[simp] theorem Slot.view_put {w : Nat} (x : Slot w) (v : Word32) :
    (x.put v).view = (true, (v.setWidth w).setWidth 32) := rfl

@[simp] theorem Slot.view_invalidate {w : Nat} (x : Slot w) : x.invalidate.view = (false, x.view.2) := rfl

/-- The slot written holds the value, cut to the slot's width. -/
theorem Store.get_write_same (st : Store) (n : SlotName) (v : Word32) :
    (st.write n v).get n = (true, (v.setWidth n.width).setWidth 32) := by
  cases n <;> rfl

/-- Every other slot is left alone. -/
theorem Store.get_write_of_ne (st : Store) {n m : SlotName} (v : Word32) (h : m ≠ n) :
    (st.write n v).get m = st.get m := by
  cases n <;> cases m <;> first | rfl | exact absurd rfl h

theorem Store.get_write (st : Store) (n m : SlotName) (v : Word32) :
    (st.write n v).get m = if m = n then (true, (v.setWidth n.width).setWidth 32) else st.get m := by
  split
  · next h => subst h; exact st.get_write_same m v
  · next h => exact st.get_write_of_ne v h

/-- RESET clears every valid bit and no value (R220). -/
theorem Store.get_invalidate (st : Store) (n : SlotName) : st.invalidate.get n = (false, (st.get n).2) := by
  cases n <;> rfl

/-- Before any commit every slot is invalid (R221). -/
theorem Store.get_empty (n : SlotName) : (Store.empty.get n).1 = false := by cases n <;> rfl

theorem Store.read_of_invalid {st : Store} {n : SlotName} (h : (st.get n).1 = false) : st.read n = none := by
  simp [Store.read, h]

theorem Store.read_of_valid {st : Store} {n : SlotName} (h : (st.get n).1 = true) :
    st.read n = some (n.number (st.get n).2) := by
  simp [Store.read, h]

theorem Store.read_eq_none_iff (st : Store) (n : SlotName) : st.read n = none ↔ (st.get n).1 = false := by
  cases h : (st.get n).1 <;> simp [Store.read, h]

/-- Equal slots read equal. -/
theorem Store.read_congr {st st' : Store} {n : SlotName} (h : st'.get n = st.get n) : st'.read n = st.read n := by
  simp [Store.read, h]

/-- A slot just written reads as the number its bits stand for. -/
theorem Store.read_write_same (st : Store) (n : SlotName) (v : Word32) :
    (st.write n v).read n = some (n.number ((v.setWidth n.width).setWidth 32)) := by
  simp [Store.read, Store.get_write_same]

theorem Store.read_write_of_ne (st : Store) {n m : SlotName} (v : Word32) (h : m ≠ n) :
    (st.write n v).read m = st.read m :=
  Store.read_congr (st.get_write_of_ne v h)

/-! ### Several writes -/

@[simp] theorem Store.writeAll_nil (st : Store) : st.writeAll [] = st := rfl

@[simp] theorem Store.writeAll_cons (st : Store) (w : SlotWrite) (ws : List SlotWrite) :
    st.writeAll (w :: ws) = (st.write w.slot w.value).writeAll ws := rfl

theorem Store.writeAll_append (st : Store) (ws ws' : List SlotWrite) :
    st.writeAll (ws ++ ws') = (st.writeAll ws).writeAll ws' := by
  induction ws generalizing st with
  | nil => rfl
  | cons w ws ih => exact ih _

/-- A slot that is not written is left alone. -/
theorem Store.get_writeAll_of_notMem (st : Store) (ws : List SlotWrite) {n : SlotName} (h : n ∉ ws.map (·.slot)) :
    (st.writeAll ws).get n = st.get n := by
  induction ws generalizing st with
  | nil => rfl
  | cons w ws ih =>
    simp only [List.map_cons, List.mem_cons, not_or] at h
    rw [Store.writeAll_cons, ih _ h.2, Store.get_write_of_ne _ _ h.1]

/-- A slot written once holds the value. -/
theorem Store.get_writeAll_of_mem (st : Store) (ws : List SlotWrite) (hd : (ws.map (·.slot)).Nodup) {w : SlotWrite}
    (h : w ∈ ws) : (st.writeAll ws).get w.slot = (true, (w.value.setWidth w.slot.width).setWidth 32) := by
  induction ws generalizing st with
  | nil => simp at h
  | cons x ws ih =>
    simp only [List.map_cons, List.nodup_cons] at hd
    rcases List.mem_cons.1 h with rfl | h
    · rw [Store.writeAll_cons, Store.get_writeAll_of_notMem _ _ hd.1, Store.get_write_same]
    · exact ih _ hd.2 h

/-- Two stores with the same slots are the same store. -/
theorem Store.ext_get {st st' : Store} (h : ∀ n, st'.get n = st.get n) : st' = st := by
  have view_inj : ∀ {w : Nat} (_ : w ≤ 32) (x y : Slot w), x.view = y.view → x = y := by
    intro w hw x y hxy
    obtain ⟨a, u⟩ := x
    obtain ⟨b, v⟩ := y
    simp only [Slot.view, Prod.mk.injEq] at hxy
    obtain ⟨rfl, huv⟩ := hxy
    congr 1
    apply BitVec.eq_of_toNat_eq
    have := congrArg BitVec.toNat huv
    simp only [BitVec.toNat_setWidth] at this
    have hp : 2 ^ w ≤ 2 ^ 32 := Nat.pow_le_pow_right (by decide) hw
    rwa [Nat.mod_eq_of_lt (by omega), Nat.mod_eq_of_lt (by omega)] at this
  cases st
  cases st'
  congr 1
  · exact view_inj (by decide) _ _ (h .address)
  · exact view_inj (by decide) _ _ (h .rollMrad)
  · exact view_inj (by decide) _ _ (h .pitchMrad)
  · exact view_inj (by decide) _ _ (h .yawMrad)
  · exact view_inj (by decide) _ _ (h .posX)
  · exact view_inj (by decide) _ _ (h .posY)
  · exact view_inj (by decide) _ _ (h .posZ)
  · exact view_inj (by decide) _ _ (h .velX)
  · exact view_inj (by decide) _ _ (h .velY)
  · exact view_inj (by decide) _ _ (h .velZ)
  · exact view_inj (by decide) _ _ (h .voltageMv)
  · exact view_inj (by decide) _ _ (h .beacons)
  · exact view_inj (by decide) _ _ (h .status)
  · exact view_inj (by decide) _ _ (h .posErr)
  · exact view_inj (by decide) _ _ (h .sysIdentifier)
  · exact view_inj (by decide) _ _ (h .sysConfigStatus)
  · exact view_inj (by decide) _ _ (h .sysLogStatus)
  · exact view_inj (by decide) _ _ (h .sysLoggerCapacity)
  · exact view_inj (by decide) _ _ (h .sysLogSize)
  · exact view_inj (by decide) _ _ (h .hwId)
  · exact view_inj (by decide) _ _ (h .fwType)
  · exact view_inj (by decide) _ _ (h .fwVersion)
  · exact view_inj (by decide) _ _ (h .protoMinor)
  · exact view_inj (by decide) _ _ (h .protoMajor)
  · exact view_inj (by decide) _ _ (h .commitHash)
  · exact view_inj (by decide) _ _ (h .commitCount)
  · exact view_inj (by decide) _ _ (h .accX)
  · exact view_inj (by decide) _ _ (h .accY)
  · exact view_inj (by decide) _ _ (h .accZ)
  · exact view_inj (by decide) _ _ (h .lvl0)
  · exact view_inj (by decide) _ _ (h .lvl1)
  · exact view_inj (by decide) _ _ (h .lvl2)
  · exact view_inj (by decide) _ _ (h .lvl3)

/-- Writes of different slots may be done in either order. -/
theorem Store.write_comm (st : Store) {n m : SlotName} (v w : Word32) (h : n ≠ m) :
    (st.write n v).write m w = (st.write m w).write n v := by
  apply Store.ext_get
  intro k
  by_cases hn : k = n
  · subst hn; simp [Store.get_write, h]
  · simp [Store.get_write, hn]

/-- The write of a slot that occurs once may be done first. -/
theorem Store.writeAll_eraseIdx (st : Store) (ws : List SlotWrite) (hd : (ws.map (·.slot)).Nodup) (k : Nat) {w : SlotWrite}
    (h : ws[k]? = some w) : (st.write w.slot w.value).writeAll (ws.eraseIdx k) = st.writeAll ws := by
  induction ws generalizing st k with
  | nil => simp at h
  | cons x ws ih =>
    simp only [List.map_cons, List.nodup_cons] at hd
    cases k with
    | zero => simp only [List.getElem?_cons_zero, Option.some.injEq] at h; subst h; rfl
    | succ k =>
      simp only [List.getElem?_cons_succ] at h
      have hne : w.slot ≠ x.slot := by
        intro e
        exact hd.1 (e ▸ List.mem_map_of_mem (List.mem_of_getElem? h))
      rw [List.eraseIdx_cons_succ, Store.writeAll_cons, Store.writeAll_cons, ← ih _ hd.2 k h,
        Store.write_comm _ _ _ hne]

theorem eraseIdx_slots_nodup {ws : List SlotWrite} (hd : (ws.map (·.slot)).Nodup) (k : Nat) :
    ((ws.eraseIdx k).map (·.slot)).Nodup :=
  hd.sublist ((List.eraseIdx_sublist ws k).map _)

end Sys2Proof.Machine
end

