-- ==== Sys2Proof/Laws/Commit.lean ====
section
/-! SUPPORT. What a commit can do, said once: it writes its slots whatever the interleaving, a take clears `fresh`, each consumer
operation appends one reply, and nothing else changes. -/

namespace Sys2Proof.Machine

@[simp] theorem runSchedule_idx (items : List SchedItem) (ws : List SlotWrite) (s : State) :
    (runSchedule items ws s).idx = s.idx := by
  induction items generalizing ws s with
  | nil => rfl
  | cons i items ih =>
    cases i with
    | consumer op => simp [runSchedule, ih]
    | write k => unfold runSchedule; split <;> simp [ih]

@[simp] theorem runSchedule_expectedSize (items : List SchedItem) (ws : List SlotWrite) (s : State) :
    (runSchedule items ws s).expectedSize = s.expectedSize := by
  induction items generalizing ws s with
  | nil => rfl
  | cons i items ih =>
    cases i with
    | consumer op => simp [runSchedule, ih]
    | write k => unfold runSchedule; split <;> simp [ih]

@[simp] theorem runSchedule_buf (items : List SchedItem) (ws : List SlotWrite) (s : State) :
    (runSchedule items ws s).buf = s.buf := by
  induction items generalizing ws s with
  | nil => rfl
  | cons i items ih =>
    cases i with
    | consumer op => simp [runSchedule, ih]
    | write k => unfold runSchedule; split <;> simp [ih]

@[simp] theorem runSchedule_stopped (items : List SchedItem) (ws : List SlotWrite) (s : State) :
    (runSchedule items ws s).stopped = s.stopped := by
  induction items generalizing ws s with
  | nil => rfl
  | cons i items ih =>
    cases i with
    | consumer op => simp [runSchedule, ih]
    | write k => unfold runSchedule; split <;> simp [ih]

@[simp] theorem runSchedule_params (items : List SchedItem) (ws : List SlotWrite) (s : State) :
    (runSchedule items ws s).params = s.params := by
  induction items generalizing ws s with
  | nil => rfl
  | cons i items ih =>
    cases i with
    | consumer op => simp [runSchedule, ih]
    | write k => unfold runSchedule; split <;> simp [ih]

@[simp] theorem runSchedule_inputs (items : List SchedItem) (ws : List SlotWrite) (s : State) :
    (runSchedule items ws s).inputs = s.inputs := by
  induction items generalizing ws s with
  | nil => rfl
  | cons i items ih =>
    cases i with
    | consumer op => simp [runSchedule, ih]
    | write k => unfold runSchedule; split <;> simp [ih]

@[simp] theorem runSchedule_sched (items : List SchedItem) (ws : List SlotWrite) (s : State) :
    (runSchedule items ws s).sched = s.sched := by
  induction items generalizing ws s with
  | nil => rfl
  | cons i items ih =>
    cases i with
    | consumer op => simp [runSchedule, ih]
    | write k => unfold runSchedule; split <;> simp [ih]

@[simp] theorem runSchedule_events (items : List SchedItem) (ws : List SlotWrite) (s : State) :
    (runSchedule items ws s).events = s.events := by
  induction items generalizing ws s with
  | nil => rfl
  | cons i items ih =>
    cases i with
    | consumer op => simp [runSchedule, ih]
    | write k => unfold runSchedule; split <;> simp [ih]

theorem freshAfter_cons (op : ConsumerOp) (ops : List ConsumerOp) (f : Bool) :
    freshAfter (op :: ops) f = freshAfter ops (freshAfter [op] f) := by
  cases op <;> cases f <;> simp [freshAfter]

@[simp] theorem freshAfter_nil (f : Bool) : freshAfter [] f = f := by cases f <;> rfl

/-- `fresh` after the interleaving: unchanged but for a take. -/
theorem runSchedule_fresh (items : List SchedItem) (ws : List SlotWrite) (s : State) :
    (runSchedule items ws s).fresh = freshAfter (consumerOps items) s.fresh := by
  induction items generalizing ws s with
  | nil => simp [runSchedule, consumerOps]
  | cons i items ih =>
    cases i with
    | consumer op => rw [runSchedule, ih, State.consume_fresh]; exact (freshAfter_cons op _ _).symm
    | write k => unfold runSchedule; split <;> simp [ih, consumerOps]

/-- Whatever the interleaving, the commit's slots end written (R160: in any order). -/
theorem runSchedule_store (items : List SchedItem) (ws : List SlotWrite) (s : State) (hd : (ws.map (·.slot)).Nodup) :
    (runSchedule items ws s).store = s.store.writeAll ws := by
  induction items generalizing ws s with
  | nil => rfl
  | cons i items ih =>
    cases i with
    | consumer op => rw [runSchedule, ih _ _ hd, State.consume_store]
    | write k =>
      unfold runSchedule
      split
      · next w h => rw [ih _ _ (eraseIdx_slots_nodup hd k), State.writeSlot_store, Store.writeAll_eraseIdx _ _ hd k h]
      · exact ih _ _ hd

/-- One reply per consumer operation, appended. -/
theorem runSchedule_replies (items : List SchedItem) (ws : List SlotWrite) (s : State) :
    ∃ rs, (runSchedule items ws s).replies = s.replies ++ rs ∧ rs.length = (consumerOps items).length := by
  induction items generalizing ws s with
  | nil => exact ⟨[], by simp [runSchedule, consumerOps]⟩
  | cons i items ih =>
    cases i with
    | consumer op =>
      obtain ⟨rs, h, hl⟩ := ih ws (s.consume op)
      exact ⟨s.answer op :: rs, by simp [runSchedule, h, consumerOps, hl]⟩
    | write k =>
      unfold runSchedule
      split
      · next w _ =>
        obtain ⟨rs, h, hl⟩ := ih (ws.eraseIdx k) (s.writeSlot w)
        exact ⟨rs, by simp [h, consumerOps, hl]⟩
      · obtain ⟨rs, h, hl⟩ := ih ws s
        exact ⟨rs, by simp [h, consumerOps, hl]⟩

@[simp] theorem State.commit_idx (s : State) (ws : List SlotWrite) : (s.commit ws).idx = s.idx := by
  simp [State.commit]
@[simp] theorem State.commit_expectedSize (s : State) (ws : List SlotWrite) : (s.commit ws).expectedSize = s.expectedSize := by
  simp [State.commit]
@[simp] theorem State.commit_buf (s : State) (ws : List SlotWrite) : (s.commit ws).buf = s.buf := by
  simp [State.commit]
@[simp] theorem State.commit_stopped (s : State) (ws : List SlotWrite) : (s.commit ws).stopped = s.stopped := by
  simp [State.commit]
@[simp] theorem State.commit_params (s : State) (ws : List SlotWrite) : (s.commit ws).params = s.params := by
  simp [State.commit]
@[simp] theorem State.commit_inputs (s : State) (ws : List SlotWrite) : (s.commit ws).inputs = s.inputs := by
  simp [State.commit]
@[simp] theorem State.commit_sched (s : State) (ws : List SlotWrite) : (s.commit ws).sched = [] := rfl
@[simp] theorem State.commit_events (s : State) (ws : List SlotWrite) : (s.commit ws).events = s.events := by
  simp [State.commit]

theorem State.commit_fresh (s : State) (ws : List SlotWrite) :
    (s.commit ws).fresh = freshAfter (consumerOps s.sched) s.fresh :=
  runSchedule_fresh s.sched ws s

theorem State.commit_store (s : State) (ws : List SlotWrite) (hd : (ws.map (·.slot)).Nodup) :
    (s.commit ws).store = s.store.writeAll ws :=
  runSchedule_store s.sched ws s hd

@[simp] theorem State.commit_nil_store (s : State) : (s.commit []).store = s.store :=
  s.commit_store [] List.nodup_nil

theorem State.commit_replies (s : State) (ws : List SlotWrite) : RepliesAppended s (s.commit ws) :=
  runSchedule_replies s.sched ws s

/-- With no interleaving and nothing to write, nothing happens. -/
theorem State.commit_nil_of_sched {s : State} (h : s.sched = []) : s.commit [] = s := by
  cases s; simp only at h; subst h; rfl

theorem State.sameControl_commit (s : State) (ws : List SlotWrite) : SameControl s (s.commit ws) where
  idx := by simp
  expectedSize := by simp
  bytes := by simp
  stopped := by simp
  params := by simp
  inputs := by simp

end Sys2Proof.Machine
end

