-- ==== Sys2Proof/Laws/Exec.lean ====
section
/-! SUPPORT. What `exec` can do, said once: every instruction commits its slot writes, TELEMETRY then sets `fresh`, and one event
is raised. -/

namespace Sys2Proof.Machine

/-- The slot writes of an instruction. -/
def instrWrites : Instr → List SlotWrite
  | .telemetry addr o x y z vx vy vz mv bc st pe _ => telemetryWrites addr o x y z vx vy vz mv bc st pe
  | .sysStatus _ ident cfg log cap size => sysStatusWrites ident cfg log cap size
  | .info _ hw fwt fwv pmin pmaj hash cnt _ => infoWrites hw fwt fwv pmin pmaj hash cnt
  | .rawAccel _ x y z _ => rawAccelWrites x y z
  | .strength _ l0 l1 l2 l3 => strengthWrites l0 l1 l2 l3
  | .unrecognized _ _ _ _ => []

/-- The decoder's event of an instruction. -/
def instrEvent : Instr → Event
  | .telemetry _ _ _ _ _ _ _ _ _ _ _ _ _ => .record .telemetry
  | .sysStatus _ _ _ _ _ _ => .record .sysStatus
  | .info _ _ _ _ _ _ _ _ _ => .record .info
  | .rawAccel _ _ _ _ _ => .record .rawAccel
  | .strength _ _ _ _ _ => .record .strength
  | .unrecognized why _ tag payload => noticeEvent why tag (headerLen + payload.length)

/-- The variant of a record, `none` for UNRECOGNIZED. -/
def instrVariant : Instr → Option Variant
  | .telemetry _ _ _ _ _ _ _ _ _ _ _ _ _ => some .telemetry
  | .sysStatus _ _ _ _ _ _ => some .sysStatus
  | .info _ _ _ _ _ _ _ _ _ => some .info
  | .rawAccel _ _ _ _ _ => some .rawAccel
  | .strength _ _ _ _ _ => some .strength
  | .unrecognized _ _ _ _ => none

/-- The state after an instruction. -/
def execState (i : Instr) (s : State) : State :=
  if instrVariant i = some .telemetry then (s.commit (instrWrites i)).setFresh.raise (instrEvent i)
  else (s.commit (instrWrites i)).raise (instrEvent i)

/-- Every instruction completes. -/
theorem exec_eq (i : Instr) (s : State) : exec i s = .next (execState i s) := by cases i <;> rfl

theorem instrWrites_nodup (i : Instr) : ((instrWrites i).map (·.slot)).Nodup := by
  cases i <;>
    simp [instrWrites, telemetryWrites, sysStatusWrites, infoWrites, rawAccelWrites, strengthWrites]

theorem instrWrites_variant (i : Instr) (w : SlotWrite) (h : w ∈ instrWrites i) :
    instrVariant i = some w.slot.variant := by
  cases i <;>
    simp only [instrWrites, telemetryWrites, sysStatusWrites, infoWrites, rawAccelWrites, strengthWrites, List.mem_cons,
      List.not_mem_nil, or_false] at h
  · rcases h with rfl | rfl | rfl | rfl | rfl | rfl | rfl | rfl | rfl | rfl | rfl | rfl | rfl | rfl <;> rfl
  · rcases h with rfl | rfl | rfl | rfl | rfl <;> rfl
  · rcases h with rfl | rfl | rfl | rfl | rfl | rfl | rfl <;> rfl
  · rcases h with rfl | rfl | rfl <;> rfl
  · rcases h with rfl | rfl | rfl | rfl <;> rfl

theorem execState_store (i : Instr) (s : State) : (execState i s).store = s.store.writeAll (instrWrites i) := by
  unfold execState
  split <;> simp [State.commit_store _ _ (instrWrites_nodup i)]

theorem execState_events (i : Instr) (s : State) : (execState i s).events = s.events ++ [instrEvent i] := by
  unfold execState
  split <;> simp

theorem execState_sched (i : Instr) (s : State) : (execState i s).sched = [] := by
  unfold execState
  split <;> simp

/-- Only TELEMETRY sets `fresh`; a take during the step clears it (R37, R160). -/
theorem execState_fresh (i : Instr) (s : State) :
    (execState i s).fresh = if instrVariant i = some .telemetry then true else freshAfter (consumerOps s.sched) s.fresh := by
  unfold execState
  split
  · simp
  · simp [State.commit_fresh]

theorem execState_replies (i : Instr) (s : State) : RepliesAppended s (execState i s) := by
  obtain ⟨rs, h, hl⟩ := s.commit_replies (instrWrites i)
  refine ⟨rs, ?_, hl⟩
  unfold execState
  split <;> simpa using h

theorem execState_control (i : Instr) (s : State) : SameControl s (execState i s) := by
  unfold execState
  split <;> exact ⟨by simp, by simp, by simp, by simp, by simp, by simp⟩

theorem execState_buf (i : Instr) (s : State) : (execState i s).buf = s.buf := by
  unfold execState
  split <;> simp

/-- A slot of another variant, valid bit and value, is left alone (R29). -/
theorem execState_get_of_variant (i : Instr) (s : State) (n : SlotName) (h : instrVariant i ≠ some n.variant) :
    (execState i s).store.get n = s.store.get n := by
  rw [execState_store]
  apply Store.get_writeAll_of_notMem
  intro hm
  obtain ⟨w, hw, rfl⟩ := List.mem_map.1 hm
  exact h (instrWrites_variant i w hw)

/-- A slot the instruction writes. -/
theorem execState_read (i : Instr) (s : State) {w : SlotWrite} (h : w ∈ instrWrites i) :
    (execState i s).store.read w.slot = some (w.slot.number ((w.value.setWidth w.slot.width).setWidth 32)) := by
  have := Store.get_writeAll_of_mem s.store (instrWrites i) (instrWrites_nodup i) h
  rw [Store.read, execState_store, this]
  rfl

theorem instrEvent_ofDecoder (i : Instr) : (instrEvent i).ofDecoder := by
  cases i with
  | unrecognized why addr tag payload => cases why <;> exact True.intro
  | _ => exact True.intro

end Sys2Proof.Machine
end

