-- ==== Sys2Proof/Laws/Crc.lean ====
section
/-! SUPPORT. The laws of the CRC: one byte at a time (spec 40_crc8.md R102), and what a table whose entries all differ detects
(41_framesync.md R123). -/

namespace Sys2Proof.Machine

@[simp] theorem crc8_nil (T : Vector Byte 256) : crc8 T [] = 0#8 := rfl

theorem crc8_append (T : Vector Byte 256) (s t : List Byte) : crc8 T (s ++ t) = t.foldl (crcByte T) (crc8 T s) := by
  simp [crc8, List.foldl_append]

theorem crc8_concat (T : Vector Byte 256) (s : List Byte) (b : Byte) : crc8 T (s ++ [b]) = crcByte T (crc8 T s) b := by
  simp [crc8_append]

theorem xor_right_inj {a b c : Byte} : a ^^^ c = b ^^^ c ↔ a = b := by
  constructor
  · intro h
    have := congrArg (· ^^^ c) h
    simpa [BitVec.xor_assoc] using this
  · rintro rfl; rfl

theorem xor_left_inj {a b c : Byte} : c ^^^ a = c ^^^ b ↔ a = b := by
  rw [BitVec.xor_comm c a, BitVec.xor_comm c b, xor_right_inj]

/-- Under a table whose entries differ, two running values that differ stay different over the same bytes. -/
theorem foldl_crcByte_injective {T : Vector Byte 256} (hT : Function.Injective (tableAt T)) (t : List Byte) {x y : Byte}
    (h : x ≠ y) : t.foldl (crcByte T) x ≠ t.foldl (crcByte T) y := by
  induction t generalizing x y with
  | nil => exact h
  | cons b t ih =>
    refine ih fun e => h ?_
    exact xor_right_inj.1 (hT e)

/-- Under a table whose entries differ, one changed byte changes the CRC. -/
theorem crc8_ne_of_one_byte {T : Vector Byte 256} (hT : Function.Injective (tableAt T)) (s t : List Byte) {a b : Byte}
    (h : a ≠ b) : crc8 T (s ++ a :: t) ≠ crc8 T (s ++ b :: t) := by
  rw [crc8_append, crc8_append, List.foldl_cons, List.foldl_cons]
  exact foldl_crcByte_injective hT t fun e => h (xor_left_inj.1 (hT e))

/-- The 256 entries as R106 lists them, row by row. -/
def t07Listing : List Nat :=
  [0, 7, 14, 9, 28, 27, 18, 21, 56, 63, 54, 49, 36, 35, 42, 45] ++
  [112, 119, 126, 121, 108, 107, 98, 101, 72, 79, 70, 65, 84, 83, 90, 93] ++
  [224, 231, 238, 233, 252, 251, 242, 245, 216, 223, 214, 209, 196, 195, 202, 205] ++
  [144, 151, 158, 153, 140, 139, 130, 133, 168, 175, 166, 161, 180, 179, 186, 189] ++
  [199, 192, 201, 206, 219, 220, 213, 210, 255, 248, 241, 246, 227, 228, 237, 234] ++
  [183, 176, 185, 190, 171, 172, 165, 162, 143, 136, 129, 134, 147, 148, 157, 154] ++
  [39, 32, 41, 46, 59, 60, 53, 50, 31, 24, 17, 22, 3, 4, 13, 10] ++
  [87, 80, 89, 94, 75, 76, 69, 66, 111, 104, 97, 102, 115, 116, 125, 122] ++
  [137, 142, 135, 128, 149, 146, 155, 156, 177, 182, 191, 184, 173, 170, 163, 164] ++
  [249, 254, 247, 240, 229, 226, 235, 236, 193, 198, 207, 200, 221, 218, 211, 212] ++
  [105, 110, 103, 96, 117, 114, 123, 124, 81, 86, 95, 88, 77, 74, 67, 68] ++
  [25, 30, 23, 16, 5, 2, 11, 12, 33, 38, 47, 40, 61, 58, 51, 52] ++
  [78, 73, 64, 71, 82, 85, 92, 91, 118, 113, 120, 127, 106, 109, 100, 99] ++
  [62, 57, 48, 55, 34, 37, 44, 43, 6, 1, 8, 15, 26, 29, 20, 19] ++
  [174, 169, 160, 167, 178, 181, 188, 187, 150, 145, 152, 159, 138, 141, 132, 131] ++
  [222, 217, 208, 215, 194, 197, 204, 203, 230, 225, 232, 239, 250, 253, 244, 243]

/-- The generated table is the one R106 lists. -/
theorem t07_eq_listing : t07.toList.map BitVec.toNat = t07Listing := by decide +kernel

/-- The reference table has 256 different entries (R106: it is a permutation). -/
theorem t07_injective : Function.Injective (tableAt t07) := by
  have nodup : t07.toList.Nodup := by
    have h : (t07.toList.map BitVec.toNat).Nodup := by
      rw [t07_eq_listing]
      decide +kernel
    exact List.Pairwise.of_map BitVec.toNat (fun _ _ h e => h (congrArg _ e)) h
  have lt : ∀ i j : Nat, ∀ (hi : i < 256) (hj : j < 256), i < j → t07.get ⟨i, hi⟩ ≠ t07.get ⟨j, hj⟩ := by
    intro i j hi hj hij
    exact List.pairwise_iff_getElem.1 nodup i j (by simpa using hi) (by simpa using hj) hij
  intro a b h
  apply BitVec.eq_of_toNat_eq
  rcases Nat.lt_trichotomy a.toNat b.toNat with hlt | heq | hgt
  · exact absurd h (lt _ _ a.isLt b.isLt hlt)
  · exact heq
  · exact absurd h.symm (lt _ _ b.isLt a.isLt hgt)

end Sys2Proof.Machine
end

