-- ==== Sys2Proof/Laws/Decode.lean ====
section
/-! SUPPORT. The laws of reading and writing fields: a field put reads back, fields that share no byte do not disturb one another,
and under a well-formed layout no field lies outside its frame, so that the decoder always answers. -/

namespace Sys2Proof

/-! ### Reading -/

theorem frameRead_isSome (F : List Byte) (a n : Nat) (h : a + n ≤ F.length) :
    ∃ v, frameRead F a n = some v ∧ v < 256 ^ n := by
  induction n generalizing a with
  | zero => exact ⟨0, rfl, by simp⟩
  | succ n ih =>
    obtain ⟨v, hv, hlt⟩ := ih (a + 1) (by omega)
    have ha : a < F.length := by omega
    refine ⟨F[a].toNat + 256 * v, by simp [frameRead, List.getElem?_eq_getElem ha, hv], ?_⟩
    have := F[a].isLt
    rw [Nat.pow_succ]
    omega

theorem frameRead_congr {F G : List Byte} (a n : Nat) (h : ∀ k, k < n → G[a + k]? = F[a + k]?) :
    frameRead G a n = frameRead F a n := by
  induction n generalizing a with
  | zero => rfl
  | succ n ih =>
    have h0 := h 0 (by omega)
    simp only [Nat.add_zero] at h0
    have h1 := ih (a + 1) (fun k hk => by
      have := h (k + 1) (by omega)
      rwa [show a + (k + 1) = a + 1 + k by omega] at this)
    rw [frameRead, frameRead, h0, h1]

@[simp] theorem bytesLE_length (n w : Nat) : (bytesLE n w).length = n := by
  induction n generalizing w with
  | zero => rfl
  | succ n ih => simp [bytesLE, ih]

theorem frameRead_bytesLE {F : List Byte} (a n w : Nat) (h : ∀ k, k < n → F[a + k]? = (bytesLE n w)[k]?) :
    frameRead F a n = some (w % 256 ^ n) := by
  induction n generalizing a w with
  | zero => simp [frameRead, Nat.mod_one]
  | succ n ih =>
    have h0 := h 0 (by omega)
    simp only [Nat.add_zero, bytesLE, List.getElem?_cons_zero] at h0
    have h1 := ih (a + 1) (w / 256) (fun k hk => by
      have := h (k + 1) (by omega)
      rw [show a + (k + 1) = a + 1 + k by omega] at this
      simpa [bytesLE] using this)
    rw [frameRead, h0, h1]
    simp only [BitVec.toNat_ofNat, Option.some.injEq]
    rw [show 256 ^ (n + 1) = 256 * 256 ^ n from Nat.pow_succ', Nat.mod_mul]

/-- A field inside the frame reads. -/
theorem Field.get_isOk (f : Field) (F : List Byte) (h : f.next ≤ F.length) :
    ∃ v, v < 256 ^ f.width.bytes ∧ frameRead F f.offset f.width.bytes = some v ∧ f.get F = .ok (f.extend v) := by
  obtain ⟨v, hv, hlt⟩ := frameRead_isSome F f.offset f.width.bytes h
  exact ⟨v, hlt, hv, by simp [Field.get, hv]⟩

theorem FieldWidth.pow_le (w : FieldWidth) : 256 ^ w.bytes ≤ 2 ^ 32 := by cases w <;> decide

/-- An unsigned field's value fits its width. -/
theorem Field.extend_lt (f : Field) (hs : f.signed = false) {v : Nat} (h : v < 256 ^ f.width.bytes) :
    (f.extend v).toNat = v := by
  have := f.width.pow_le
  simp only [Field.extend, hs, Bool.false_eq_true, if_false, BitVec.toNat_ofNat]
  exact Nat.mod_eq_of_lt (by omega)

/-! ### Layouts -/

namespace Layout

theorem next_le_reach {fs : List Field} {f : Field} (h : f ∈ fs) : f.next ≤ reach fs := by
  induction fs with
  | nil => simp at h
  | cons g fs ih =>
    rcases List.mem_cons.1 h with rfl | h
    · exact Nat.le_max_left _ _
    · exact Nat.le_trans (ih h) (Nat.le_max_right _ _)

theorem next_le_minLen (L : Layout) (v : Variant) {f : Field} (h : f ∈ L.fields v) : f.next ≤ L.minLen v :=
  next_le_reach h

theorem fieldsOk_offset {fs : List Field} (h : fieldsOk fs = true) {f : Field} (hf : f ∈ fs) : headerLen ≤ f.offset := by
  induction fs with
  | nil => simp at hf
  | cons g fs ih =>
    simp only [fieldsOk, Bool.and_eq_true, decide_eq_true_eq] at h
    rcases List.mem_cons.1 hf with rfl | hf
    · exact h.1.1
    · exact ih h.2 hf

/-- What a well-formed layout says, in one place. -/
structure Facts (L : Layout) : Prop where
  fields      : ∀ v, fieldsOk (L.fields v) = true
  sysStatus   : L.minLen .sysStatus ≤ sysStatusLen
  strength    : L.minLen .strength ≤ strengthLen
  orient      : L.orient.width = .four ∧ L.orient.signed = false
  position    : ∀ f ∈ [L.posX, L.posY, L.posZ], f.width = .four ∧ f.signed = true
  velocity    : ∀ f ∈ [L.velX, L.velY, L.velZ], f.width = .two ∧ f.signed = true
  voltage     : L.voltageMv.width = .two ∧ L.voltageMv.signed = false
  bytes       : ∀ f ∈ [L.beacons, L.status, L.posErr], f.width = .one ∧ f.signed = false
  sysUnsigned : ∀ f ∈ L.fields .sysStatus, f.signed = false
  infoUnsigned : ∀ f ∈ [L.hwId, L.fwType, L.fwVersion, L.protoMinor, L.protoMajor], f.signed = false
  commitHash  : L.commitHash.width = .four ∧ L.commitHash.signed = false
  commitCount : L.commitCount.width = .two ∧ L.commitCount.signed = false
  rawAccel    : ∀ f ∈ L.fields .rawAccel, f.width = .two ∧ f.signed = true
  levels      : ∀ f ∈ L.fields .strength, f.width = .two ∧ f.signed = true

theorem facts {L : Layout} (h : L.wf = true) : L.Facts := by
  simp only [wf, Bool.and_eq_true, shaped, decide_eq_true_eq, List.all_eq_true, Bool.not_eq_true'] at h
  obtain ⟨⟨⟨⟨⟨⟨⟨⟨⟨⟨⟨⟨⟨⟨⟨⟨⟨h1, h2⟩, h3⟩, h4⟩, h5⟩, h6⟩, h7⟩, h8⟩, h9⟩, h10⟩, h11⟩, h12⟩, h13⟩, h14⟩, h15⟩, h16⟩, h17⟩, h18⟩ := h
  exact ⟨fun v => by cases v <;> assumption, h6, h7, h8 _ (by simp), h9, h10, h11, h12, h13, h14, h15, h16, h17, h18⟩

theorem default_wf : Layout.default.wf = true := by decide

end Layout

/-! ### The decoder answers -/

theorem selectVariant_minLen {L : Layout} (hL : L.Facts) {tag : Byte} {len : Nat} {v : Variant}
    (h : selectVariant L tag len = .ok v) : L.minLen v ≤ len := by
  have h6 := hL.sysStatus
  have h7 := hL.strength
  simp only [selectVariant, gate] at h
  repeat' split at h
  all_goals first
    | (simp only [Except.ok.injEq, reduceCtorEq] at h; done)
    | (simp only [Except.ok.injEq] at h; subst h; simp_all)

/-- A record's fields lie inside its frame, so the decoder of a variant answers. -/
theorem decodeVariant_isOk (L : Layout) (addr : Byte) (F : List Byte) (v : Variant) (h : L.minLen v ≤ F.length) :
    ∃ i, decodeVariant L addr F v = .ok i := by
  have get : ∀ f ∈ L.fields v, ∃ x, f.get F = .ok x := fun f hf => by
    obtain ⟨x, _, _, hx⟩ := f.get_isOk F (Nat.le_trans (L.next_le_minLen v hf) h)
    exact ⟨_, hx⟩
  cases v with
  | telemetry =>
    obtain ⟨_, h0⟩ := get L.orient (by simp [Layout.fields])
    obtain ⟨_, h1⟩ := get L.posX (by simp [Layout.fields])
    obtain ⟨_, h2⟩ := get L.posY (by simp [Layout.fields])
    obtain ⟨_, h3⟩ := get L.posZ (by simp [Layout.fields])
    obtain ⟨_, h4⟩ := get L.velX (by simp [Layout.fields])
    obtain ⟨_, h5⟩ := get L.velY (by simp [Layout.fields])
    obtain ⟨_, h6⟩ := get L.velZ (by simp [Layout.fields])
    obtain ⟨_, h7⟩ := get L.voltageMv (by simp [Layout.fields])
    obtain ⟨_, h8⟩ := get L.beacons (by simp [Layout.fields])
    obtain ⟨_, h9⟩ := get L.status (by simp [Layout.fields])
    obtain ⟨_, h10⟩ := get L.posErr (by simp [Layout.fields])
    simp only [decodeVariant, decodeTelemetry, h0, h1, h2, h3, h4, h5, h6, h7, h8, h9, h10]
    exact ⟨_, rfl⟩
  | sysStatus =>
    obtain ⟨_, h0⟩ := get L.sysIdentifier (by simp [Layout.fields])
    obtain ⟨_, h1⟩ := get L.sysConfigStatus (by simp [Layout.fields])
    obtain ⟨_, h2⟩ := get L.sysLogStatus (by simp [Layout.fields])
    obtain ⟨_, h3⟩ := get L.sysLoggerCapacity (by simp [Layout.fields])
    obtain ⟨_, h4⟩ := get L.sysLogSize (by simp [Layout.fields])
    simp only [decodeVariant, decodeSysStatus, h0, h1, h2, h3, h4]
    exact ⟨_, rfl⟩
  | info =>
    obtain ⟨_, h0⟩ := get L.hwId (by simp [Layout.fields])
    obtain ⟨_, h1⟩ := get L.fwType (by simp [Layout.fields])
    obtain ⟨_, h2⟩ := get L.fwVersion (by simp [Layout.fields])
    obtain ⟨_, h3⟩ := get L.protoMinor (by simp [Layout.fields])
    obtain ⟨_, h4⟩ := get L.protoMajor (by simp [Layout.fields])
    obtain ⟨_, h5⟩ := get L.commitHash (by simp [Layout.fields])
    obtain ⟨_, h6⟩ := get L.commitCount (by simp [Layout.fields])
    simp only [decodeVariant, decodeInfo, h0, h1, h2, h3, h4, h5, h6]
    exact ⟨_, rfl⟩
  | rawAccel =>
    obtain ⟨_, h0⟩ := get L.accX (by simp [Layout.fields])
    obtain ⟨_, h1⟩ := get L.accY (by simp [Layout.fields])
    obtain ⟨_, h2⟩ := get L.accZ (by simp [Layout.fields])
    simp only [decodeVariant, decodeRawAccel, h0, h1, h2]
    exact ⟨_, rfl⟩
  | strength =>
    obtain ⟨_, h0⟩ := get L.lvl0 (by simp [Layout.fields])
    obtain ⟨_, h1⟩ := get L.lvl1 (by simp [Layout.fields])
    obtain ⟨_, h2⟩ := get L.lvl2 (by simp [Layout.fields])
    obtain ⟨_, h3⟩ := get L.lvl3 (by simp [Layout.fields])
    simp only [decodeVariant, decodeStrength, h0, h1, h2, h3]
    exact ⟨_, rfl⟩

/-- Under a well-formed layout every frame with a header decodes (R131, R140). -/
theorem decodeFrame_isOk {L : Layout} (hL : L.wf = true) {F : List Byte} (h : headerLen ≤ F.length) :
    ∃ i, decodeFrame L F = .ok i := by
  match F, h with
  | a :: b :: addr :: tag :: payload, _ =>
    simp only [decodeFrame]
    split
    · next v hv => exact decodeVariant_isOk L addr _ v (selectVariant_minLen (Layout.facts hL) hv)
    · exact ⟨_, rfl⟩

/-! ### Writing -/

@[simp] theorem putBytes_length (F : List Byte) (a : Nat) (bs : List Byte) : (putBytes F a bs).length = F.length := by
  induction bs generalizing F a with
  | nil => rfl
  | cons b bs ih => simp [putBytes, ih]

theorem getElem?_putBytes_of_lt (F : List Byte) {a k : Nat} (bs : List Byte) (h : k < a) :
    (putBytes F a bs)[k]? = F[k]? := by
  induction bs generalizing F a with
  | nil => rfl
  | cons b bs ih => rw [putBytes, ih _ (by omega), List.getElem?_set_ne (by omega)]

theorem getElem?_putBytes_of_ge (F : List Byte) {a k : Nat} (bs : List Byte) (h : a + bs.length ≤ k) :
    (putBytes F a bs)[k]? = F[k]? := by
  induction bs generalizing F a with
  | nil => rfl
  | cons b bs ih =>
    simp only [List.length_cons] at h
    rw [putBytes, ih _ (by omega), List.getElem?_set_ne (by omega)]

theorem getElem?_putBytes (F : List Byte) (a k : Nat) (bs : List Byte) (hk : k < bs.length) (h : a + bs.length ≤ F.length) :
    (putBytes F a bs)[a + k]? = bs[k]? := by
  induction bs generalizing F a k with
  | nil => simp at hk
  | cons b bs ih =>
    simp only [List.length_cons] at h hk
    cases k with
    | zero =>
      rw [putBytes, getElem?_putBytes_of_lt _ _ (by omega), Nat.add_zero, List.getElem?_set_self (by omega)]
      rfl
    | succ k =>
      rw [putBytes, show a + (k + 1) = a + 1 + k by omega, ih _ _ _ (by omega) (by simp; omega)]
      simp

@[simp] theorem Field.put_length (f : Field) (v : Word32) (F : List Byte) : (f.put v F).length = F.length := by
  simp [Field.put]

/-- A field put reads back, cut to its width. -/
theorem Field.get_put_same (f : Field) (v : Word32) {F : List Byte} (h : f.next ≤ F.length) :
    f.get (f.put v F) = .ok (f.extend (v.toNat % 256 ^ f.width.bytes)) := by
  have : frameRead (f.put v F) f.offset f.width.bytes = some (v.toNat % 256 ^ f.width.bytes) := by
    apply frameRead_bytesLE
    intro k hk
    exact getElem?_putBytes _ _ _ _ (by simpa using hk) (by simpa [Field.next] using h)
  simp [Field.get, this]

theorem Field.disjoint_comm (f g : Field) : f.disjoint g = g.disjoint f := by
  simp [Field.disjoint, Bool.or_comm]

/-- Putting a field leaves the bytes of a field that shares none with it. -/
theorem Field.getElem?_put_of_disjoint {f g : Field} (hd : f.disjoint g = true) (v : Word32) (F : List Byte) {k : Nat}
    (hk : k < f.width.bytes) : (g.put v F)[f.offset + k]? = F[f.offset + k]? := by
  simp only [Field.disjoint, Bool.or_eq_true, decide_eq_true_eq] at hd
  simp only [Field.next] at hd
  rcases hd with h | h
  · exact getElem?_putBytes_of_lt _ _ (by omega)
  · exact getElem?_putBytes_of_ge _ _ (by simp; omega)

theorem Field.get_put_of_disjoint {f g : Field} (hd : f.disjoint g = true) (v : Word32) (F : List Byte) :
    f.get (g.put v F) = f.get F := by
  simp only [Field.get]
  rw [frameRead_congr _ _ fun k hk => Field.getElem?_put_of_disjoint hd v F hk]

@[simp] theorem putFields_length (fvs : List (Field × Word32)) (F : List Byte) :
    (putFields fvs F).length = F.length := by
  induction fvs generalizing F with
  | nil => rfl
  | cons x fvs ih => obtain ⟨f, v⟩ := x; simp [putFields, ih]

theorem Field.get_putFields_of_disjoint {f : Field} (fvs : List (Field × Word32)) (F : List Byte)
    (h : ∀ g ∈ fvs.map Prod.fst, f.disjoint g = true) : f.get (putFields fvs F) = f.get F := by
  induction fvs generalizing F with
  | nil => rfl
  | cons x fvs ih =>
    obtain ⟨g, v⟩ := x
    simp only [List.map_cons, List.mem_cons, forall_eq_or_imp] at h
    rw [putFields, ih _ h.2, Field.get_put_of_disjoint h.1]

/-- Fields that share no byte, all put: each reads back. -/
theorem Field.get_putFields {fvs : List (Field × Word32)} {F : List Byte} (hok : Layout.fieldsOk (fvs.map Prod.fst) = true)
    {f : Field} {v : Word32} (hm : (f, v) ∈ fvs) (h : f.next ≤ F.length) :
    f.get (putFields fvs F) = .ok (f.extend (v.toNat % 256 ^ f.width.bytes)) := by
  induction fvs generalizing F with
  | nil => simp at hm
  | cons x fvs ih =>
    obtain ⟨g, u⟩ := x
    simp only [List.map_cons, Layout.fieldsOk, Bool.and_eq_true, List.all_eq_true] at hok
    rcases List.mem_cons.1 hm with heq | hm
    · obtain ⟨rfl, rfl⟩ := Prod.mk.inj heq
      rw [putFields, Field.get_putFields_of_disjoint _ _ hok.1.2, Field.get_put_same _ _ h]
    · exact ih hok.2 hm (by simpa using h)

theorem getElem?_putFields_header (fvs : List (Field × Word32)) (F : List Byte)
    (h : ∀ g ∈ fvs.map Prod.fst, headerLen ≤ g.offset) {k : Nat} (hk : k < headerLen) :
    (putFields fvs F)[k]? = F[k]? := by
  induction fvs generalizing F with
  | nil => rfl
  | cons x fvs ih =>
    obtain ⟨g, v⟩ := x
    simp only [List.map_cons, List.mem_cons, forall_eq_or_imp] at h
    rw [putFields, ih _ h.2]
    exact getElem?_putBytes_of_lt _ _ (by omega)

/-- A field inside the first part of a frame reads there. -/
theorem Field.get_append (f : Field) (F extra : List Byte) (h : f.next ≤ F.length) : f.get (F ++ extra) = f.get F := by
  simp only [Field.get]
  rw [frameRead_congr]
  intro k hk
  simp only [Field.next] at h
  exact List.getElem?_append_left (by omega)

theorem frameWith_length (tag addr : Byte) (len : Nat) (fvs : List (Field × Word32)) (extra : List Byte) (h : headerLen ≤ len) :
    (frameWith tag addr len fvs extra).length = len + extra.length := by
  simp only [frameWith, List.length_append, putFields_length, List.length_cons, List.length_replicate]
  simp only [headerLen] at h ⊢
  omega

/-- The header of a frame made by the encoder. -/
theorem frameWith_header (tag addr : Byte) (len : Nat) (fvs : List (Field × Word32)) (extra : List Byte)
    (h : ∀ g ∈ fvs.map Prod.fst, headerLen ≤ g.offset) :
    ∃ payload, frameWith tag addr len fvs extra =
      startMarker :: BitVec.ofNat 8 (len - headerLen + extra.length) :: addr :: tag :: payload := by
  have key := fun k hk => getElem?_putFields_header fvs
    (startMarker :: BitVec.ofNat 8 (len - headerLen + extra.length) :: addr :: tag :: List.replicate (len - headerLen) 0#8) h
    (k := k) hk
  have hl := putFields_length fvs
    (startMarker :: BitVec.ofNat 8 (len - headerLen + extra.length) :: addr :: tag :: List.replicate (len - headerLen) 0#8)
  unfold frameWith
  revert key hl
  generalize putFields fvs _ = G
  intro key hl
  match G, hl with
  | a :: b :: c :: d :: rest, _ =>
    have h0 := key 0 (by decide)
    have h1 := key 1 (by decide)
    have h2 := key 2 (by decide)
    have h3 := key 3 (by decide)
    simp only [List.getElem?_cons_zero, List.getElem?_cons_succ, Option.some.injEq] at h0 h1 h2 h3
    subst h0 h1 h2 h3
    exact ⟨rest ++ extra, rfl⟩

end Sys2Proof
end

