-- ==== Sys2Proof/Laws/Fields.lean ====
section
/-! SUPPORT. The fields of a frame, byte by byte (spec 20_memory.md R52, R54): what `Field.get` reads, and what `decodeFrame` is
on each side of the dispatch (42_decoder.md R131). -/

namespace Sys2Proof

open Sys2Proof.Machine

theorem byteAt_eq {F : List Byte} {k : Nat} (h : k < F.length) : byteAt F k = F[k] := by simp [byteAt, h]

/-- Two bytes, the first the less significant. -/
theorem toNat_half (a b : Byte) : (b ++ a).toNat = a.toNat + 256 * b.toNat := by
  have ha := a.isLt
  rw [BitVec.toNat_append, ← Nat.shiftLeft_add_eq_or_of_lt a.isLt]
  simp only [Nat.shiftLeft_eq]
  omega

/-- Four bytes, the first the least significant. -/
theorem toNat_word (a b c d : Byte) :
    (d ++ c ++ b ++ a).toNat = a.toNat + 256 * (b.toNat + 256 * (c.toNat + 256 * d.toNat)) := by
  have ha := a.isLt
  have hb := b.isLt
  have hc := c.isLt
  simp only [BitVec.toNat_append]
  rw [← Nat.shiftLeft_add_eq_or_of_lt a.isLt, ← Nat.shiftLeft_add_eq_or_of_lt b.isLt,
    ← Nat.shiftLeft_add_eq_or_of_lt c.isLt]
  simp only [Nat.shiftLeft_eq]
  omega

/-- A 4-byte field is the word at its offset, whatever its sign. -/
theorem Field.get_word {f : Field} {F : List Byte} (h : f.next ≤ F.length) (hw : f.width = .four) :
    f.get F = .ok (wordAt F f.offset) := by
  obtain ⟨o, w, sg⟩ := f
  simp only at hw
  subst hw
  simp only [Field.next, FieldWidth.bytes] at h
  simp only [Field.get, FieldWidth.bytes, frameRead, List.getElem?_eq_getElem (show o < F.length by omega),
    List.getElem?_eq_getElem (show o + 1 < F.length by omega), List.getElem?_eq_getElem (show o + 1 + 1 < F.length by omega),
    List.getElem?_eq_getElem (show o + 1 + 1 + 1 < F.length by omega)]
  congr 1
  rw [wordAt, byteAt_eq (show o < F.length by omega), byteAt_eq (show o + 1 < F.length by omega),
    byteAt_eq (show o + 2 < F.length by omega), byteAt_eq (show o + 3 < F.length by omega)]
  have hv := toNat_word F[o] F[o + 1] F[o + 2] F[o + 3]
  have e : F[o].toNat + 256 * (F[o + 1].toNat + 256 * (F[o + 1 + 1].toNat + 256 * (F[o + 1 + 1 + 1].toNat + 256 * 0))) =
      (F[o + 3] ++ F[o + 2] ++ F[o + 1] ++ F[o]).toNat := by
    rw [hv]; simp only [Nat.mul_zero, Nat.add_zero, Nat.add_assoc]
  rw [e]
  generalize F[o + 3] ++ F[o + 2] ++ F[o + 1] ++ F[o] = v
  cases sg
  · simp [Field.extend]
  · simp only [Field.extend, if_true, FieldWidth.bytes]
    rw [show BitVec.ofNat (8 * 4) v.toNat = v from BitVec.eq_of_toNat_eq (by simp)]
    exact BitVec.signExtend_eq _

/-- A 2-byte field, cut back to 16 bits, is the half at its offset; an unsigned one is zero-extended. -/
theorem Field.get_half {f : Field} {F : List Byte} (h : f.next ≤ F.length) (hw : f.width = .two) :
    ∃ v, f.get F = .ok v ∧ v.setWidth 16 = halfAt F f.offset ∧
      (f.signed = false → v = (halfAt F f.offset).setWidth 32) := by
  obtain ⟨o, w, sg⟩ := f
  simp only at hw
  subst hw
  simp only [Field.next, FieldWidth.bytes] at h
  have hg : (Field.mk o .two sg).get F = .ok ((Field.mk o .two sg).extend (halfAt F o).toNat) := by
    simp only [Field.get, FieldWidth.bytes, frameRead, List.getElem?_eq_getElem (show o < F.length by omega),
      List.getElem?_eq_getElem (show o + 1 < F.length by omega)]
    rw [halfAt, byteAt_eq (show o < F.length by omega), byteAt_eq (show o + 1 < F.length by omega), toNat_half,
      Nat.mul_zero, Nat.add_zero]
  refine ⟨_, hg, ?_, fun hs => ?_⟩
  · generalize halfAt F o = v
    cases sg
    · apply BitVec.eq_of_toNat_eq
      have := v.isLt
      simp only [Field.extend, Bool.false_eq_true, if_false, BitVec.toNat_setWidth, BitVec.toNat_ofNat]
      omega
    · simp only [Field.extend, if_true, FieldWidth.bytes]
      rw [show BitVec.ofNat (8 * 2) v.toNat = v from BitVec.eq_of_toNat_eq (by simp)]
      apply BitVec.eq_of_getLsbD_eq
      intro i hi
      simp only [BitVec.getLsbD_setWidth, hi, BitVec.getLsbD_signExtend]
      simp
      omega
  · simp only at hs
    subst hs
    apply BitVec.eq_of_toNat_eq
    simp [Field.extend]

/-- A 1-byte unsigned field is the byte at its offset. -/
theorem Field.get_byte {f : Field} {F : List Byte} (h : f.next ≤ F.length) (hw : f.width = .one) (hs : f.signed = false) :
    f.get F = .ok ((byteAt F f.offset).setWidth 32) := by
  obtain ⟨o, w, sg⟩ := f
  simp only at hw hs
  subst hw hs
  simp only [Field.next, FieldWidth.bytes] at h
  simp only [Field.get, FieldWidth.bytes, frameRead, List.getElem?_eq_getElem (show o < F.length by omega),
    byteAt_eq (show o < F.length by omega)]
  congr 1
  apply BitVec.eq_of_toNat_eq
  simp [Field.extend]

/-- An unsigned field of any width. -/
theorem Field.get_unsigned {f : Field} {F : List Byte} (h : f.next ≤ F.length) (hs : f.signed = false) :
    f.get F = .ok (unsignedAt F f) := by
  unfold unsignedAt
  cases hw : f.width with
  | one => exact Field.get_byte h hw hs
  | two => obtain ⟨v, hv, _, h2⟩ := Field.get_half h hw; rw [hv, h2 hs]
  | four => exact Field.get_word h hw

/-! ### The two sides of the dispatch -/

theorem frame_header {F : List Byte} (h : headerLen ≤ F.length) :
    ∃ a b payload, F = a :: b :: byteAt F 2 :: byteAt F 3 :: payload := by
  match F, h with
  | a :: b :: c :: d :: payload, _ => exact ⟨a, b, payload, rfl⟩

/-- A frame that a variant takes is decoded as that variant. -/
theorem decodeFrame_of {L : Layout} {F : List Byte} (h : headerLen ≤ F.length) {v : Variant}
    (hv : selectVariant L (byteAt F 3) F.length = .ok v) : decodeFrame L F = decodeVariant L (byteAt F 2) F v := by
  obtain ⟨a, b, p, hF⟩ := frame_header h
  rw [decodeFrame.eq_def, hF]
  simp only
  rw [← hF, hv]

/-- A frame that none takes is UNRECOGNIZED, with the reason of the dispatch. -/
theorem decodeFrame_error {L : Layout} {F : List Byte} (h : headerLen ≤ F.length) {why : Reason}
    (hv : selectVariant L (byteAt F 3) F.length = .error why) :
    ∃ payload, payload.length + headerLen = F.length ∧
      decodeFrame L F = .ok (.unrecognized why (byteAt F 2) (byteAt F 3) payload) := by
  obtain ⟨a, b, p, hF⟩ := frame_header h
  refine ⟨p, by rw [hF]; simp [headerLen], ?_⟩
  rw [decodeFrame.eq_def, hF]
  simp only
  rw [← hF, hv]

theorem headerLen_le_of_decodeFrame {L : Layout} {F : List Byte} {i : Instr} (h : decodeFrame L F = .ok i) :
    headerLen ≤ F.length := by
  match F, h with
  | _ :: _ :: _ :: _ :: _, _ => simp [headerLen]

end Sys2Proof
end

