-- ==== Sys2Proof/Laws/Memory.lean ====
section
/-! SUPPORT. The laws of the frame buffer: a byte reads as it was last written, a write leaves every other byte alone, and every
write keeps the canonical form. -/

namespace Sys2Proof.Machine

@[simp] theorem Memory.read_nil (a : Nat) : Memory.read [] a = none := rfl

/-- Read after write. -/
theorem Memory.read_write (m : Memory) (a : Nat) (b : Byte) (c : Nat) :
    Memory.read (m.write a b) c = if c = a then some b else m.read c := by
  induction m with
  | nil => by_cases h : a = c <;> simp [Memory.write, Memory.read, h, eq_comm]
  | cons x m ih =>
    unfold Memory.write
    split
    · by_cases h : a = c <;> simp [Memory.read, h, eq_comm]
    · split
      · next h =>
        subst h
        by_cases h : x.1 = c
        · simp [Memory.read, h]
        · simp [Memory.read, h, Ne.symm h]
      · next h1 h2 =>
        by_cases hx : x.1 = c
        · subst hx; simp [Memory.read, Ne.symm h2]
        · simp [Memory.read, hx, ih]

theorem Memory.read_write_same (m : Memory) (a : Nat) (b : Byte) : Memory.read (m.write a b) a = some b := by
  simp [Memory.read_write]

theorem Memory.read_write_of_ne (m : Memory) {a c : Nat} (b : Byte) (h : c ≠ a) :
    Memory.read (m.write a b) c = m.read c := by
  simp [Memory.read_write, h]

theorem Memory.wfFrom_mono {lo lo' : Nat} {m : Memory} (h : lo' ≤ lo) (hm : Memory.wfFrom lo m = true) :
    Memory.wfFrom lo' m = true := by
  cases m with
  | nil => rfl
  | cons c m =>
    simp only [Memory.wfFrom, Bool.and_eq_true, decide_eq_true_eq] at hm ⊢
    exact ⟨⟨by omega, hm.1.2⟩, hm.2⟩

theorem Memory.wfFrom_write {lo : Nat} {m : Memory} (a : Nat) (b : Byte) (hlo : lo ≤ a) (ha : a < bufCapacity)
    (hm : Memory.wfFrom lo m = true) : Memory.wfFrom lo (m.write a b) = true := by
  induction m generalizing lo with
  | nil => simp [Memory.write, Memory.wfFrom, hlo, ha]
  | cons c m ih =>
    simp only [Memory.wfFrom, Bool.and_eq_true, decide_eq_true_eq] at hm
    unfold Memory.write
    split
    · simp only [Memory.wfFrom, Bool.and_eq_true, decide_eq_true_eq]
      exact ⟨⟨hlo, ha⟩, ⟨by omega, hm.1.2⟩, hm.2⟩
    · split
      · next h => subst h; simp only [Memory.wfFrom, Bool.and_eq_true, decide_eq_true_eq]; exact ⟨⟨hlo, ha⟩, hm.2⟩
      · simp only [Memory.wfFrom, Bool.and_eq_true, decide_eq_true_eq]
        exact ⟨hm.1, ih (by omega) hm.2⟩

/-- A write inside the buffer keeps the canonical form. -/
theorem Memory.wf_write {m : Memory} (a : Nat) (b : Byte) (ha : a < bufCapacity) (hm : m.wf = true) :
    Memory.wf (m.write a b) = true :=
  Memory.wfFrom_write a b (Nat.zero_le a) ha hm

theorem Memory.wf_writeAll (bs : List Byte) {m : Memory} (a : Nat) (ha : a + bs.length ≤ bufCapacity) (hm : m.wf = true) :
    Memory.wf (m.writeAll a bs) = true := by
  induction bs generalizing m a with
  | nil => exact hm
  | cons b bs ih =>
    simp only [List.length_cons] at ha
    exact ih (a + 1) (by omega) (Memory.wf_write a b (by omega) hm)

theorem Memory.read_writeAll_of_lt (bs : List Byte) (m : Memory) {a c : Nat} (h : c < a) :
    Memory.read (m.writeAll a bs) c = m.read c := by
  induction bs generalizing m a with
  | nil => rfl
  | cons b bs ih => rw [Memory.writeAll, ih _ (by omega), Memory.read_write_of_ne _ _ (by omega)]

theorem Memory.read_writeAll_of_ge (bs : List Byte) (m : Memory) {a c : Nat} (h : a + bs.length ≤ c) :
    Memory.read (m.writeAll a bs) c = m.read c := by
  induction bs generalizing m a with
  | nil => rfl
  | cons b bs ih =>
    simp only [List.length_cons] at h
    rw [Memory.writeAll, ih _ (by omega), Memory.read_write_of_ne _ _ (by omega)]

/-- Bytes written one after another read back in place. -/
theorem Memory.read_writeAll (bs : List Byte) (m : Memory) (a k : Nat) (h : k < bs.length) :
    Memory.read (m.writeAll a bs) (a + k) = bs[k]? := by
  induction bs generalizing m a k with
  | nil => simp at h
  | cons b bs ih =>
    cases k with
    | zero => rw [Memory.writeAll, Memory.read_writeAll_of_lt _ _ (by omega)]; simp [Memory.read_write_same]
    | succ k =>
      simp only [List.length_cons] at h
      have := ih (m.write a b) (a + 1) k (by omega)
      rw [Memory.writeAll, show a + (k + 1) = a + 1 + k by omega, this]
      simp

/-! ### Slices -/

@[simp] theorem Memory.slice_zero (m : Memory) (a : Nat) : m.slice a 0 = some [] := rfl

/-- A slice exists exactly when each of its bytes has been written, and holds them in order. -/
theorem Memory.slice_eq_some (m : Memory) (a n : Nat) (F : List Byte) :
    m.slice a n = some F ↔ F.length = n ∧ ∀ k, k < n → m.read (a + k) = F[k]? := by
  induction n generalizing a F with
  | zero =>
    cases F with
    | nil => simp
    | cons x F => simp
  | succ n ih =>
    rw [Memory.slice]
    constructor
    · intro h
      split at h
      · next b bs hb hbs =>
        simp only [Option.some.injEq] at h
        subst h
        obtain ⟨hl, hr⟩ := (ih (a + 1) bs).1 hbs
        refine ⟨by simp [hl], fun k hk => ?_⟩
        cases k with
        | zero => simpa using hb
        | succ k =>
          rw [show a + (k + 1) = a + 1 + k by omega, hr k (by omega)]
          simp
      · simp at h
    · rintro ⟨hl, hr⟩
      cases F with
      | nil => simp at hl
      | cons x F =>
        have h0 := hr 0 (by omega)
        simp only [Nat.add_zero, List.getElem?_cons_zero] at h0
        have h1 : m.slice (a + 1) n = some F := by
          rw [ih]
          refine ⟨by simpa using hl, fun k hk => ?_⟩
          have := hr (k + 1) (by omega)
          rw [show a + (k + 1) = a + 1 + k by omega] at this
          simpa using this
        simp [h0, h1]

/-- Written bytes can be read as a slice. -/
theorem Memory.slice_isSome (m : Memory) (a n : Nat) (h : ∀ k, k < n → ∃ b, m.read (a + k) = some b) :
    ∃ F, m.slice a n = some F := by
  induction n generalizing a with
  | zero => exact ⟨[], rfl⟩
  | succ n ih =>
    obtain ⟨b, hb⟩ := h 0 (by omega)
    obtain ⟨F, hF⟩ := ih (a + 1) (fun k hk => by
      have := h (k + 1) (by omega)
      rwa [show a + (k + 1) = a + 1 + k by omega] at this)
    refine ⟨b :: F, ?_⟩
    simp only [Nat.add_zero] at hb
    simp [Memory.slice, hb, hF]

/-- Slices depend only on the bytes they read. -/
theorem Memory.slice_congr {m m' : Memory} (a n : Nat) (h : ∀ k, k < n → m'.read (a + k) = m.read (a + k)) :
    m'.slice a n = m.slice a n := by
  induction n generalizing a with
  | zero => rfl
  | succ n ih =>
    have h0 := h 0 (by omega)
    simp only [Nat.add_zero] at h0
    have h1 := ih (a + 1) (fun k hk => by
      have := h (k + 1) (by omega)
      rwa [show a + (k + 1) = a + 1 + k by omega] at this)
    simp [Memory.slice, h0, h1]

/-- The tail of a slice is the slice one further on. -/
theorem Memory.slice_tail {m : Memory} {a n : Nat} {F : List Byte} (h : m.slice a (n + 1) = some F) :
    m.slice (a + 1) n = some (F.drop 1) := by
  rw [Memory.slice] at h
  split at h
  · next b bs _ hbs =>
    simp only [Option.some.injEq] at h
    subst h
    simpa using hbs
  · simp at h

theorem Memory.slice_writeAll (m : Memory) (F : List Byte) : Memory.slice (m.writeAll 0 F) 0 F.length = some F := by
  rw [Memory.slice_eq_some]
  refine ⟨rfl, fun k hk => ?_⟩
  have := Memory.read_writeAll F m 0 k hk
  simpa using this

end Sys2Proof.Machine
end

