-- ==== Sys2Proof/Laws/Sync.lean ====
section
/-! SUPPORT. What a byte can do, said once (`ByteStep`): the five rules of the synchronizer and the stopped block. -/

namespace Sys2Proof.Machine

theorem idx_eq_zero_iff (x : Cursor) : x = 0 ↔ x.toNat = 0 := by
  constructor
  · rintro rfl; rfl
  · intro h; exact BitVec.eq_of_toNat_eq h

theorem idx_eq_one_iff (x : Cursor) : x = 1 ↔ x.toNat = 1 := by
  constructor
  · rintro rfl; rfl
  · intro h; exact BitVec.eq_of_toNat_eq h

theorem State.phase_seek {s : State} (h : s.idx = 0) : s.phase = .seek := by simp [State.phase, h]

theorem State.phase_size {s : State} (h : s.idx = 1) : s.phase = .size := by simp [State.phase, h]

theorem State.phase_fill {s : State} (h2 : 2 ≤ s.idx.toNat) (h : s.idx.toNat < s.expectedSize.toNat) :
    s.phase = .fill := by
  have h0 : s.idx ≠ 0 := fun e => by rw [idx_eq_zero_iff] at e; omega
  have h1 : s.idx ≠ 1 := fun e => by rw [idx_eq_one_iff] at e; omega
  rw [State.phase, if_neg h0, if_neg h1, if_pos (BitVec.lt_def.2 h)]

theorem State.phase_check {s : State} (h2 : 2 ≤ s.idx.toNat) (h : s.expectedSize.toNat ≤ s.idx.toNat) :
    s.phase = .check := by
  have h0 : s.idx ≠ 0 := fun e => by rw [idx_eq_zero_iff] at e; omega
  have h1 : s.idx ≠ 1 := fun e => by rw [idx_eq_one_iff] at e; omega
  rw [State.phase, if_neg h0, if_neg h1, if_neg fun hlt => absurd (BitVec.lt_def.1 hlt) (by omega)]

/-- The four guards of R24 cover every state. -/
theorem State.phase_cases (s : State) :
    (s.phase = .seek ∧ s.idx = 0) ∨ (s.phase = .size ∧ s.idx = 1) ∨
    (s.phase = .fill ∧ 2 ≤ s.idx.toNat ∧ s.idx.toNat < s.expectedSize.toNat) ∨
    (s.phase = .check ∧ 2 ≤ s.idx.toNat ∧ s.expectedSize.toNat ≤ s.idx.toNat) := by
  by_cases h0 : s.idx = 0
  · exact .inl ⟨State.phase_seek h0, h0⟩
  by_cases h1 : s.idx = 1
  · exact .inr (.inl ⟨State.phase_size h1, h1⟩)
  have h2 : 2 ≤ s.idx.toNat := by
    rw [idx_eq_zero_iff] at h0
    rw [idx_eq_one_iff] at h1
    omega
  by_cases h : s.idx.toNat < s.expectedSize.toNat
  · exact .inr (.inr (.inl ⟨State.phase_fill h2 h, h2, h⟩))
  · exact .inr (.inr (.inr ⟨State.phase_check h2 (by omega), h2, by omega⟩))

/-- The CRC's operand is the stored frame without its marker. -/
theorem slice_body {m : Memory} {n : Nat} {F : List Byte} (h : m.slice 0 n = some F) : m.slice 1 (n - 1) = some (F.drop 1) := by
  cases n with
  | zero => simp only [Memory.slice_zero, Option.some.injEq] at h; subst h; rfl
  | succ n => exact Memory.slice_tail h

/-- The state in which CHECK hands the frame to the decoder (R114). -/
def State.handed (s : State) (F : List Byte) : State := { s with idx := 0 }.raise (.frame F)

/-- What the step of one byte can do (R110 to R115, R128). -/
inductive ByteStep (b : Byte) (s : State) : State → Prop where
  | stopped (h : s.stopped = true) : ByteStep b s (s.commit [])
  | seek (hr : s.stopped = false) (h : s.idx = 0) : ByteStep b s ((s.seek b).commit [])
  | size (hr : s.stopped = false) (h : s.idx = 1) : ByteStep b s ((s.size b).commit [])
  | fill (hr : s.stopped = false) (h2 : 2 ≤ s.idx.toNat) (h : s.idx.toNat < s.expectedSize.toNat)
      (hc : s.idx.toNat < bufCapacity) : ByteStep b s ((s.fill b).commit [])
  | reject (hr : s.stopped = false) (h2 : 2 ≤ s.idx.toNat) (h : s.expectedSize.toNat ≤ s.idx.toNat) (F : List Byte)
      (hF : s.buf.slice 0 s.expectedSize.toNat = some F) (addr : Byte) (ha : s.buf.read 2 = some addr)
      (hb : b ≠ crc8 s.params.crc8Table (F.drop 1)) : ByteStep b s ((s.reject addr).commit [])
  | accept (hr : s.stopped = false) (h2 : 2 ≤ s.idx.toNat) (h : s.expectedSize.toNat ≤ s.idx.toNat) (F : List Byte)
      (hF : s.buf.slice 0 s.expectedSize.toNat = some F) (addr : Byte) (ha : s.buf.read 2 = some addr)
      (hb : b = crc8 s.params.crc8Table (F.drop 1)) (i : Instr) (hi : decodeFrame s.params.layout F = .ok i) :
      ByteStep b s (execState i (s.handed F))

theorem State.check_eq {s : State} {b addr : Byte} {F : List Byte} (hF : s.buf.slice 0 s.expectedSize.toNat = some F)
    (ha : s.buf.read 2 = some addr) :
    s.check b = if b = crc8 s.params.crc8Table (F.drop 1) then s.accept F else .next ((s.reject addr).commit []) := by
  simp [State.check, slice_body hF, hF, ha]

theorem State.accept_eq {s : State} {F : List Byte} {i : Instr} (h : decodeFrame s.params.layout F = .ok i) :
    s.accept F = .next (execState i (s.handed F)) := by
  simp [State.accept, h, exec_eq, State.handed]

theorem byteStep_of_stepByte {b : Byte} {s t : State} (h : stepByte b s = .next t) : ByteStep b s t := by
  unfold stepByte at h
  split at h
  · next hr => cases h; exact .stopped hr
  · next hr =>
    have hr : s.stopped = false := by simpa using hr
    rcases s.phase_cases with ⟨hp, hi⟩ | ⟨hp, hi⟩ | ⟨hp, h2, hi⟩ | ⟨hp, h2, hi⟩ <;> simp only [hp] at h
    · cases h; exact .seek hr hi
    · cases h; exact .size hr hi
    · split at h
      · next hc => cases h; exact .fill hr h2 hi hc
      · cases h
    · unfold State.check at h
      split at h
      · next body F addr hbody hF ha =>
        rw [slice_body hF] at hbody
        cases hbody
        split at h
        · next hb =>
          unfold State.accept at h
          split at h
          · next i hd => rw [exec_eq] at h; cases h; exact .accept hr h2 hi F hF addr ha hb i hd
          · cases h
          · cases h
        · next hb => cases h; exact .reject hr h2 hi F hF addr ha hb
      · cases h

theorem stepByte_of_byteStep {b : Byte} {s t : State} (h : ByteStep b s t) : stepByte b s = .next t := by
  cases h with
  | stopped h => simp [stepByte, h]
  | seek hr h => simp [stepByte, hr, State.phase_seek h]
  | size hr h => simp [stepByte, hr, State.phase_size h]
  | fill hr h2 h hc => simp [stepByte, hr, State.phase_fill h2 h, hc]
  | reject hr h2 h F hF addr ha hb =>
    simp only [stepByte, hr, Bool.false_eq_true, if_false, State.phase_check h2 h, State.check_eq hF ha, if_neg hb]
  | accept hr h2 h F hF addr ha hb i hi =>
    simp only [stepByte, hr, Bool.false_eq_true, if_false, State.phase_check h2 h, State.check_eq hF ha, if_pos hb,
      State.accept_eq hi]

/-- What the step of one byte does, said once. -/
theorem stepByte_iff {b : Byte} {s t : State} : stepByte b s = .next t ↔ ByteStep b s t :=
  ⟨byteStep_of_stepByte, stepByte_of_byteStep⟩

@[simp] theorem State.handed_idx (s : State) (F : List Byte) : (s.handed F).idx = 0 := rfl
@[simp] theorem State.handed_expectedSize (s : State) (F : List Byte) : (s.handed F).expectedSize = s.expectedSize := rfl
@[simp] theorem State.handed_buf (s : State) (F : List Byte) : (s.handed F).buf = s.buf := rfl
@[simp] theorem State.handed_store (s : State) (F : List Byte) : (s.handed F).store = s.store := rfl
@[simp] theorem State.handed_fresh (s : State) (F : List Byte) : (s.handed F).fresh = s.fresh := rfl
@[simp] theorem State.handed_stopped (s : State) (F : List Byte) : (s.handed F).stopped = s.stopped := rfl
@[simp] theorem State.handed_params (s : State) (F : List Byte) : (s.handed F).params = s.params := rfl
@[simp] theorem State.handed_inputs (s : State) (F : List Byte) : (s.handed F).inputs = s.inputs := rfl
@[simp] theorem State.handed_sched (s : State) (F : List Byte) : (s.handed F).sched = s.sched := rfl
@[simp] theorem State.handed_events (s : State) (F : List Byte) : (s.handed F).events = s.events ++ [.frame F] := rfl
@[simp] theorem State.handed_replies (s : State) (F : List Byte) : (s.handed F).replies = s.replies := rfl

/-! ### Chunks -/

@[simp] theorem feed_nil (s : State) : feed [] s = .next s := rfl

theorem feed_cons (b : Byte) (bs : List Byte) (s : State) : feed (b :: bs) s = andThen (stepByte b s) (feed bs) := rfl

theorem feed_cons_next {b : Byte} {bs : List Byte} {s t : State} (h : stepByte b s = .next t) :
    feed (b :: bs) s = feed bs t := by
  rw [feed_cons, h]; rfl

end Sys2Proof.Machine
end

