-- ==== Sys2Proof/Laws/Step.lean ====
section
/-! SUPPORT. What a step can do, said once (`StepCase`): nothing offered; a byte; RESET, SYNC_RESTART, STOP; a consumer. -/

namespace Sys2Proof.Machine

/-- The state in which the step of an offered byte begins. -/
def State.offered (s : State) (during : List SchedItem) (rest : List Input) : State :=
  { s.begin rest with sched := during }

@[simp] theorem State.offered_idx (s : State) (d : List SchedItem) (r : List Input) : (s.offered d r).idx = s.idx := rfl
@[simp] theorem State.offered_expectedSize (s : State) (d : List SchedItem) (r : List Input) :
    (s.offered d r).expectedSize = s.expectedSize := rfl
@[simp] theorem State.offered_buf (s : State) (d : List SchedItem) (r : List Input) : (s.offered d r).buf = s.buf := rfl
@[simp] theorem State.offered_store (s : State) (d : List SchedItem) (r : List Input) : (s.offered d r).store = s.store := rfl
@[simp] theorem State.offered_fresh (s : State) (d : List SchedItem) (r : List Input) : (s.offered d r).fresh = s.fresh := rfl
@[simp] theorem State.offered_stopped (s : State) (d : List SchedItem) (r : List Input) :
    (s.offered d r).stopped = s.stopped := rfl
@[simp] theorem State.offered_params (s : State) (d : List SchedItem) (r : List Input) : (s.offered d r).params = s.params := rfl
@[simp] theorem State.offered_inputs (s : State) (d : List SchedItem) (r : List Input) : (s.offered d r).inputs = r := rfl
@[simp] theorem State.offered_sched (s : State) (d : List SchedItem) (r : List Input) : (s.offered d r).sched = d := rfl
@[simp] theorem State.offered_events (s : State) (d : List SchedItem) (r : List Input) : (s.offered d r).events = [] := rfl
@[simp] theorem State.offered_replies (s : State) (d : List SchedItem) (r : List Input) : (s.offered d r).replies = [] := rfl

/-- What a step can do. -/
inductive StepCase (s : State) : State → Prop where
  | idle (h : s.inputs = []) : StepCase s (s.begin [])
  | byte (b : Byte) (during : List SchedItem) (rest : List Input) (h : s.inputs = .byte b during :: rest) (t : State)
      (hb : ByteStep b (s.offered during rest) t) : StepCase s t
  | reset (rest : List Input) (h : s.inputs = .reset :: rest) : StepCase s (s.begin rest).resetOp
  | syncRestart (rest : List Input) (h : s.inputs = .syncRestart :: rest) : StepCase s (s.begin rest).syncRestart
  | stop (rest : List Input) (h : s.inputs = .stop :: rest) : StepCase s (s.begin rest).setStopped
  | consumer (op : ConsumerOp) (rest : List Input) (h : s.inputs = .consumer op :: rest) :
      StepCase s ((s.begin rest).consume op)

theorem step_byte {s : State} {b : Byte} {during : List SchedItem} {rest : List Input}
    (h : s.inputs = .byte b during :: rest) : step s = stepByte b (s.offered during rest) := by
  simp [step, h, perform, State.offered]

/-- What a step does, said once. -/
theorem step_iff {s t : State} : step s = .next t ↔ StepCase s t := by
  constructor
  · intro h
    match hi : s.inputs with
    | [] => simp only [step, hi] at h; cases h; exact .idle hi
    | .byte b during :: rest =>
      rw [step_byte hi] at h
      exact .byte b during rest hi t (stepByte_iff.1 h)
    | .reset :: rest => simp only [step, hi, perform] at h; cases h; exact .reset rest hi
    | .syncRestart :: rest => simp only [step, hi, perform] at h; cases h; exact .syncRestart rest hi
    | .stop :: rest => simp only [step, hi, perform] at h; cases h; exact .stop rest hi
    | .consumer op :: rest => simp only [step, hi, perform] at h; cases h; exact .consumer op rest hi
  · intro h
    cases h with
    | idle h => simp [step, h]
    | byte b during rest h t hb => rw [step_byte h]; exact stepByte_iff.2 hb
    | reset rest h => simp [step, h, perform]
    | syncRestart rest h => simp [step, h, perform]
    | stop rest h => simp [step, h, perform]
    | consumer op rest h => simp [step, h, perform]

/-- A run of one step more, from a step that answers a next state. -/
theorem core_run_succ {s t : State} (h : step s = .next t) (k : Nat) :
    Sys2Proof.core.run (k + 1) s = Sys2Proof.core.run k t := by
  have h' : Sys2Proof.core.step s = .next t := h
  simp only [Host.Core.run, h']

end Sys2Proof.Machine
end

