-- ==== Sys2Proof/Laws/PerInstr.lean ====
section
/-! SUPPORT. Statements made per instruction: `EncodedSize`, that the encoding of a well-formed instruction begins with the start
marker and has N + 4 bytes, N its second byte (spec 30_encoding.md R70, R72). -/

namespace Sys2Proof.Laws.EncodedSize

/-- The encoding of `i` is a stored frame, under every well-formed layout that `i` fits. -/
def Statement (i : Instr) : Prop :=
  ∀ L : Layout, L.wf = true → i.wf L = true → Sys2Proof.Machine.StoredFrame (encode L i)

/-- A frame of the encoder, at most 255 payload bytes long, is a stored frame. -/
theorem of_frameWith {tag addr : Byte} {len : Nat} {fvs : List (Field × Word32)} {extra : List Byte}
    (hf : ∀ g ∈ fvs.map Prod.fst, headerLen ≤ g.offset) (hl : headerLen ≤ len)
    (hn : len + extra.length ≤ headerLen + maxPayload) :
    Sys2Proof.Machine.StoredFrame (frameWith tag addr len fvs extra) := by
  have hlen := frameWith_length tag addr len fvs extra hl
  obtain ⟨payload, hp⟩ := frameWith_header tag addr len fvs extra hf
  rw [hp] at hlen ⊢
  refine ⟨rfl, _, rfl, ?_⟩
  rw [hlen]
  simp only [headerLen, maxPayload, BitVec.toNat_ofNat] at hl hn ⊢
  omega

theorem minLen_ge {L : Layout} (hL : L.wf = true) (v : Variant) {f : Field} (hf : f ∈ L.fields v) :
    headerLen ≤ L.minLen v := by
  have h1 := L.next_le_minLen v hf
  have h2 := Layout.fieldsOk_offset ((Layout.facts hL).fields v) hf
  simp only [Field.next] at h1
  omega

theorem telemetry (addr : Byte) (o x y z : Word32) (vx vy vz mv : BitVec 16) (bc st pe : Byte) (extra : List Byte) :
    Statement (.telemetry addr o x y z vx vy vz mv bc st pe extra) := fun L hL hi =>
  of_frameWith (fun _ hg => Layout.fieldsOk_offset ((Layout.facts hL).fields .telemetry) hg)
    (minLen_ge hL .telemetry (f := L.orient) (by simp [Layout.fields]))
    (by simpa [Instr.wf, Layout.roomFor] using hi)

theorem sysStatus (addr : Byte) (ident cfg log cap size : Word32) : Statement (.sysStatus addr ident cfg log cap size) :=
  fun L hL _ =>
  of_frameWith (fun _ hg => Layout.fieldsOk_offset ((Layout.facts hL).fields .sysStatus) hg) (by decide) (by decide)

theorem info (addr : Byte) (hw fwt fwv pmin pmaj hash : Word32) (cnt : BitVec 16) (extra : List Byte) :
    Statement (.info addr hw fwt fwv pmin pmaj hash cnt extra) := fun L hL hi =>
  of_frameWith (fun _ hg => Layout.fieldsOk_offset ((Layout.facts hL).fields .info) hg)
    (minLen_ge hL .info (f := L.hwId) (by simp [Layout.fields]))
    (by simp only [Instr.wf, Layout.roomFor, Bool.and_eq_true, decide_eq_true_eq] at hi; exact hi.2)

theorem rawAccel (addr : Byte) (x y z : BitVec 16) (extra : List Byte) : Statement (.rawAccel addr x y z extra) :=
  fun L hL hi =>
  of_frameWith (fun _ hg => Layout.fieldsOk_offset ((Layout.facts hL).fields .rawAccel) hg)
    (minLen_ge hL .rawAccel (f := L.accX) (by simp [Layout.fields]))
    (by simpa [Instr.wf, Layout.roomFor] using hi)

theorem strength (addr : Byte) (l0 l1 l2 l3 : BitVec 16) : Statement (.strength addr l0 l1 l2 l3) := fun L hL _ =>
  of_frameWith (fun _ hg => Layout.fieldsOk_offset ((Layout.facts hL).fields .strength) hg) (by decide) (by decide)

theorem unrecognized (why : Reason) (addr tag : Byte) (payload : List Byte) : Statement (.unrecognized why addr tag payload) := by
  intro L _ hi
  rw [Instr.wf, Bool.and_eq_true] at hi
  have hn : payload.length ≤ 255 := of_decide_eq_true hi.1
  refine ⟨rfl, _, rfl, ?_⟩
  simp only [encode, List.length_cons, BitVec.toNat_ofNat]
  omega

end Sys2Proof.Laws.EncodedSize
end

