-- ==== Sys2Proof/Laws/RomTables.lean ====
section
/-! SUPPORT. The orientation ROMs as spec 44_orientation_rom.md lists them (R180), and that the angle functions of the model give
every entry. PITCH_ROM is the first 1024 entries of ROLL_ROM. -/

namespace Sys2Proof.Machine

def rollRomPart0 : List Nat :=
  [0, 3, 6, 9, 12, 15, 18, 21, 25, 28, 31, 34, 37, 40, 43, 46] ++
  [49, 52, 55, 58, 61, 64, 67, 71, 74, 77, 80, 83, 86, 89, 92, 95] ++
  [98, 101, 104, 107, 110, 114, 117, 120, 123, 126, 129, 132, 135, 138, 141, 144] ++
  [147, 150, 153, 156, 160, 163, 166, 169, 172, 175, 178, 181, 184, 187, 190, 193] ++
  [196, 199, 202, 206, 209, 212, 215, 218, 221, 224, 227, 230, 233, 236, 239, 242] ++
  [245, 249, 252, 255, 258, 261, 264, 267, 270, 273, 276, 279, 282, 285, 288, 291] ++
  [295, 298, 301, 304, 307, 310, 313, 316, 319, 322, 325, 328, 331, 334, 337, 341] ++
  [344, 347, 350, 353, 356, 359, 362, 365, 368, 371, 374, 377, 380, 383, 387, 390] ++
  [393, 396, 399, 402, 405, 408, 411, 414, 417, 420, 423, 426, 430, 433, 436, 439] ++
  [442, 445, 448, 451, 454, 457, 460, 463, 466, 469, 472, 476, 479, 482, 485, 488] ++
  [491, 494, 497, 500, 503, 506, 509, 512, 515, 518, 522, 525, 528, 531, 534, 537] ++
  [540, 543, 546, 549, 552, 555, 558, 561, 565, 568, 571, 574, 577, 580, 583, 586] ++
  [589, 592, 595, 598, 601, 604, 607, 611, 614, 617, 620, 623, 626, 629, 632, 635] ++
  [638, 641, 644, 647, 650, 653, 657, 660, 663, 666, 669, 672, 675, 678, 681, 684] ++
  [687, 690, 693, 696, 699, 703, 706, 709, 712, 715, 718, 721, 724, 727, 730, 733] ++
  [736, 739, 742, 746, 749, 752, 755, 758, 761, 764, 767, 770, 773, 776, 779, 782]

def rollRomPart1 : List Nat :=
  [785, 788, 792, 795, 798, 801, 804, 807, 810, 813, 816, 819, 822, 825, 828, 831] ++
  [834, 838, 841, 844, 847, 850, 853, 856, 859, 862, 865, 868, 871, 874, 877, 881] ++
  [884, 887, 890, 893, 896, 899, 902, 905, 908, 911, 914, 917, 920, 923, 927, 930] ++
  [933, 936, 939, 942, 945, 948, 951, 954, 957, 960, 963, 966, 969, 973, 976, 979] ++
  [982, 985, 988, 991, 994, 997, 1000, 1003, 1006, 1009, 1012, 1015, 1019, 1022, 1025, 1028] ++
  [1031, 1034, 1037, 1040, 1043, 1046, 1049, 1052, 1055, 1058, 1062, 1065, 1068, 1071, 1074, 1077] ++
  [1080, 1083, 1086, 1089, 1092, 1095, 1098, 1101, 1104, 1108, 1111, 1114, 1117, 1120, 1123, 1126] ++
  [1129, 1132, 1135, 1138, 1141, 1144, 1147, 1150, 1154, 1157, 1160, 1163, 1166, 1169, 1172, 1175] ++
  [1178, 1181, 1184, 1187, 1190, 1193, 1197, 1200, 1203, 1206, 1209, 1212, 1215, 1218, 1221, 1224] ++
  [1227, 1230, 1233, 1236, 1239, 1243, 1246, 1249, 1252, 1255, 1258, 1261, 1264, 1267, 1270, 1273] ++
  [1276, 1279, 1282, 1285, 1289, 1292, 1295, 1298, 1301, 1304, 1307, 1310, 1313, 1316, 1319, 1322] ++
  [1325, 1328, 1331, 1335, 1338, 1341, 1344, 1347, 1350, 1353, 1356, 1359, 1362, 1365, 1368, 1371] ++
  [1374, 1378, 1381, 1384, 1387, 1390, 1393, 1396, 1399, 1402, 1405, 1408, 1411, 1414, 1417, 1420] ++
  [1424, 1427, 1430, 1433, 1436, 1439, 1442, 1445, 1448, 1451, 1454, 1457, 1460, 1463, 1466, 1470] ++
  [1473, 1476, 1479, 1482, 1485, 1488, 1491, 1494, 1497, 1500, 1503, 1506, 1509, 1513, 1516, 1519] ++
  [1522, 1525, 1528, 1531, 1534, 1537, 1540, 1543, 1546, 1549, 1552, 1555, 1559, 1562, 1565, 1568]

def rollRomPart2 : List Nat :=
  [1571, 1574, 1577, 1580, 1583, 1586, 1589, 1592, 1595, 1598, 1601, 1605, 1608, 1611, 1614, 1617] ++
  [1620, 1623, 1626, 1629, 1632, 1635, 1638, 1641, 1644, 1647, 1651, 1654, 1657, 1660, 1663, 1666] ++
  [1669, 1672, 1675, 1678, 1681, 1684, 1687, 1690, 1694, 1697, 1700, 1703, 1706, 1709, 1712, 1715] ++
  [1718, 1721, 1724, 1727, 1730, 1733, 1736, 1740, 1743, 1746, 1749, 1752, 1755, 1758, 1761, 1764] ++
  [1767, 1770, 1773, 1776, 1779, 1782, 1786, 1789, 1792, 1795, 1798, 1801, 1804, 1807, 1810, 1813] ++
  [1816, 1819, 1822, 1825, 1829, 1832, 1835, 1838, 1841, 1844, 1847, 1850, 1853, 1856, 1859, 1862] ++
  [1865, 1868, 1871, 1875, 1878, 1881, 1884, 1887, 1890, 1893, 1896, 1899, 1902, 1905, 1908, 1911] ++
  [1914, 1917, 1921, 1924, 1927, 1930, 1933, 1936, 1939, 1942, 1945, 1948, 1951, 1954, 1957, 1960] ++
  [1963, 1967, 1970, 1973, 1976, 1979, 1982, 1985, 1988, 1991, 1994, 1997, 2000, 2003, 2006, 2010] ++
  [2013, 2016, 2019, 2022, 2025, 2028, 2031, 2034, 2037, 2040, 2043, 2046, 2049, 2052, 2056, 2059] ++
  [2062, 2065, 2068, 2071, 2074, 2077, 2080, 2083, 2086, 2089, 2092, 2095, 2098, 2102, 2105, 2108] ++
  [2111, 2114, 2117, 2120, 2123, 2126, 2129, 2132, 2135, 2138, 2141, 2145, 2148, 2151, 2154, 2157] ++
  [2160, 2163, 2166, 2169, 2172, 2175, 2178, 2181, 2184, 2187, 2191, 2194, 2197, 2200, 2203, 2206] ++
  [2209, 2212, 2215, 2218, 2221, 2224, 2227, 2230, 2233, 2237, 2240, 2243, 2246, 2249, 2252, 2255] ++
  [2258, 2261, 2264, 2267, 2270, 2273, 2276, 2279, 2283, 2286, 2289, 2292, 2295, 2298, 2301, 2304] ++
  [2307, 2310, 2313, 2316, 2319, 2322, 2326, 2329, 2332, 2335, 2338, 2341, 2344, 2347, 2350, 2353]

def rollRomPart3 : List Nat :=
  [2356, 2359, 2362, 2365, 2368, 2372, 2375, 2378, 2381, 2384, 2387, 2390, 2393, 2396, 2399, 2402] ++
  [2405, 2408, 2411, 2414, 2418, 2421, 2424, 2427, 2430, 2433, 2436, 2439, 2442, 2445, 2448, 2451] ++
  [2454, 2457, 2461, 2464, 2467, 2470, 2473, 2476, 2479, 2482, 2485, 2488, 2491, 2494, 2497, 2500] ++
  [2503, 2507, 2510, 2513, 2516, 2519, 2522, 2525, 2528, 2531, 2534, 2537, 2540, 2543, 2546, 2549] ++
  [2553, 2556, 2559, 2562, 2565, 2568, 2571, 2574, 2577, 2580, 2583, 2586, 2589, 2592, 2595, 2599] ++
  [2602, 2605, 2608, 2611, 2614, 2617, 2620, 2623, 2626, 2629, 2632, 2635, 2638, 2642, 2645, 2648] ++
  [2651, 2654, 2657, 2660, 2663, 2666, 2669, 2672, 2675, 2678, 2681, 2684, 2688, 2691, 2694, 2697] ++
  [2700, 2703, 2706, 2709, 2712, 2715, 2718, 2721, 2724, 2727, 2730, 2734, 2737, 2740, 2743, 2746] ++
  [2749, 2752, 2755, 2758, 2761, 2764, 2767, 2770, 2773, 2777, 2780, 2783, 2786, 2789, 2792, 2795] ++
  [2798, 2801, 2804, 2807, 2810, 2813, 2816, 2819, 2823, 2826, 2829, 2832, 2835, 2838, 2841, 2844] ++
  [2847, 2850, 2853, 2856, 2859, 2862, 2865, 2869, 2872, 2875, 2878, 2881, 2884, 2887, 2890, 2893] ++
  [2896, 2899, 2902, 2905, 2908, 2911, 2915, 2918, 2921, 2924, 2927, 2930, 2933, 2936, 2939, 2942] ++
  [2945, 2948, 2951, 2954, 2958, 2961, 2964, 2967, 2970, 2973, 2976, 2979, 2982, 2985, 2988, 2991] ++
  [2994, 2997, 3000, 3004, 3007, 3010, 3013, 3016, 3019, 3022, 3025, 3028, 3031, 3034, 3037, 3040] ++
  [3043, 3046, 3050, 3053, 3056, 3059, 3062, 3065, 3068, 3071, 3074, 3077, 3080, 3083, 3086, 3089] ++
  [3093, 3096, 3099, 3102, 3105, 3108, 3111, 3114, 3117, 3120, 3123, 3126, 3129, 3132, 3135, 3139]

def rollRomPart4 : List Nat :=
  [3142, 3145, 3148, 3151, 3154, 3157, 3160, 3163, 3166, 3169, 3172, 3175, 3178, 3181, 3185, 3188] ++
  [3191, 3194, 3197, 3200, 3203, 3206, 3209, 3212, 3215, 3218, 3221, 3224, 3227, 3231, 3234, 3237] ++
  [3240, 3243, 3246, 3249, 3252, 3255, 3258, 3261, 3264, 3267, 3270, 3274, 3277, 3280, 3283, 3286] ++
  [3289, 3292, 3295, 3298, 3301, 3304, 3307, 3310, 3313, 3316, 3320, 3323, 3326, 3329, 3332, 3335] ++
  [3338, 3341, 3344, 3347, 3350, 3353, 3356, 3359, 3362, 3366, 3369, 3372, 3375, 3378, 3381, 3384] ++
  [3387, 3390, 3393, 3396, 3399, 3402, 3405, 3409, 3412, 3415, 3418, 3421, 3424, 3427, 3430, 3433] ++
  [3436, 3439, 3442, 3445, 3448, 3451, 3455, 3458, 3461, 3464, 3467, 3470, 3473, 3476, 3479, 3482] ++
  [3485, 3488, 3491, 3494, 3497, 3501, 3504, 3507, 3510, 3513, 3516, 3519, 3522, 3525, 3528, 3531] ++
  [3534, 3537, 3540, 3543, 3547, 3550, 3553, 3556, 3559, 3562, 3565, 3568, 3571, 3574, 3577, 3580] ++
  [3583, 3586, 3590, 3593, 3596, 3599, 3602, 3605, 3608, 3611, 3614, 3617, 3620, 3623, 3626, 3629] ++
  [3632, 3636, 3639, 3642, 3645, 3648, 3651, 3654, 3657, 3660, 3663, 3666, 3669, 3672, 3675, 3678] ++
  [3682, 3685, 3688, 3691, 3694, 3697, 3700, 3703, 3706, 3709, 3712, 3715, 3718, 3721, 3725, 3728] ++
  [3731, 3734, 3737, 3740, 3743, 3746, 3749, 3752, 3755, 3758, 3761, 3764, 3767, 3771, 3774, 3777] ++
  [3780, 3783, 3786, 3789, 3792, 3795, 3798, 3801, 3804, 3807, 3810, 3813, 3817, 3820, 3823, 3826] ++
  [3829, 3832, 3835, 3838, 3841, 3844, 3847, 3850, 3853, 3856, 3859, 3863, 3866, 3869, 3872, 3875] ++
  [3878, 3881, 3884, 3887, 3890, 3893, 3896, 3899, 3902, 3906, 3909, 3912, 3915, 3918, 3921, 3924]

def rollRomPart5 : List Nat :=
  [3927, 3930, 3933, 3936, 3939, 3942, 3945, 3948, 3952, 3955, 3958, 3961, 3964, 3967, 3970, 3973] ++
  [3976, 3979, 3982, 3985, 3988, 3991, 3994, 3998, 4001, 4004, 4007, 4010, 4013, 4016, 4019, 4022] ++
  [4025, 4028, 4031, 4034, 4037, 4041, 4044, 4047, 4050, 4053, 4056, 4059, 4062, 4065, 4068, 4071] ++
  [4074, 4077, 4080, 4083, 4087, 4090, 4093, 4096, 4099, 4102, 4105, 4108, 4111, 4114, 4117, 4120] ++
  [4123, 4126, 4129, 4133, 4136, 4139, 4142, 4145, 4148, 4151, 4154, 4157, 4160, 4163, 4166, 4169] ++
  [4172, 4175, 4179, 4182, 4185, 4188, 4191, 4194, 4197, 4200, 4203, 4206, 4209, 4212, 4215, 4218] ++
  [4222, 4225, 4228, 4231, 4234, 4237, 4240, 4243, 4246, 4249, 4252, 4255, 4258, 4261, 4264, 4268] ++
  [4271, 4274, 4277, 4280, 4283, 4286, 4289, 4292, 4295, 4298, 4301, 4304, 4307, 4310, 4314, 4317] ++
  [4320, 4323, 4326, 4329, 4332, 4335, 4338, 4341, 4344, 4347, 4350, 4353, 4357, 4360, 4363, 4366] ++
  [4369, 4372, 4375, 4378, 4381, 4384, 4387, 4390, 4393, 4396, 4399, 4403, 4406, 4409, 4412, 4415] ++
  [4418, 4421, 4424, 4427, 4430, 4433, 4436, 4439, 4442, 4445, 4449, 4452, 4455, 4458, 4461, 4464] ++
  [4467, 4470, 4473, 4476, 4479, 4482, 4485, 4488, 4491, 4495, 4498, 4501, 4504, 4507, 4510, 4513] ++
  [4516, 4519, 4522, 4525, 4528, 4531, 4534, 4538, 4541, 4544, 4547, 4550, 4553, 4556, 4559, 4562] ++
  [4565, 4568, 4571, 4574, 4577, 4580, 4584, 4587, 4590, 4593, 4596, 4599, 4602, 4605, 4608, 4611] ++
  [4614, 4617, 4620, 4623, 4626, 4630, 4633, 4636, 4639, 4642, 4645, 4648, 4651, 4654, 4657, 4660] ++
  [4663, 4666, 4669, 4673, 4676, 4679, 4682, 4685, 4688, 4691, 4694, 4697, 4700, 4703, 4706, 4709]

def rollRomPart6 : List Nat :=
  [4712, 4715, 4719, 4722, 4725, 4728, 4731, 4734, 4737, 4740, 4743, 4746, 4749, 4752, 4755, 4758] ++
  [4761, 4765, 4768, 4771, 4774, 4777, 4780, 4783, 4786, 4789, 4792, 4795, 4798, 4801, 4804, 4807] ++
  [4811, 4814, 4817, 4820, 4823, 4826, 4829, 4832, 4835, 4838, 4841, 4844, 4847, 4850, 4854, 4857] ++
  [4860, 4863, 4866, 4869, 4872, 4875, 4878, 4881, 4884, 4887, 4890, 4893, 4896, 4900, 4903, 4906] ++
  [4909, 4912, 4915, 4918, 4921, 4924, 4927, 4930, 4933, 4936, 4939, 4942, 4946, 4949, 4952, 4955] ++
  [4958, 4961, 4964, 4967, 4970, 4973, 4976, 4979, 4982, 4985, 4989, 4992, 4995, 4998, 5001, 5004] ++
  [5007, 5010, 5013, 5016, 5019, 5022, 5025, 5028, 5031, 5035, 5038, 5041, 5044, 5047, 5050, 5053] ++
  [5056, 5059, 5062, 5065, 5068, 5071, 5074, 5077, 5081, 5084, 5087, 5090, 5093, 5096, 5099, 5102] ++
  [5105, 5108, 5111, 5114, 5117, 5120, 5123, 5127, 5130, 5133, 5136, 5139, 5142, 5145, 5148, 5151] ++
  [5154, 5157, 5160, 5163, 5166, 5170, 5173, 5176, 5179, 5182, 5185, 5188, 5191, 5194, 5197, 5200] ++
  [5203, 5206, 5209, 5212, 5216, 5219, 5222, 5225, 5228, 5231, 5234, 5237, 5240, 5243, 5246, 5249] ++
  [5252, 5255, 5258, 5262, 5265, 5268, 5271, 5274, 5277, 5280, 5283, 5286, 5289, 5292, 5295, 5298] ++
  [5301, 5305, 5308, 5311, 5314, 5317, 5320, 5323, 5326, 5329, 5332, 5335, 5338, 5341, 5344, 5347] ++
  [5351, 5354, 5357, 5360, 5363, 5366, 5369, 5372, 5375, 5378, 5381, 5384, 5387, 5390, 5393, 5397] ++
  [5400, 5403, 5406, 5409, 5412, 5415, 5418, 5421, 5424, 5427, 5430, 5433, 5436, 5439, 5443, 5446] ++
  [5449, 5452, 5455, 5458, 5461, 5464, 5467, 5470, 5473, 5476, 5479, 5482, 5486, 5489, 5492, 5495]

def rollRomPart7 : List Nat :=
  [5498, 5501, 5504, 5507, 5510, 5513, 5516, 5519, 5522, 5525, 5528, 5532, 5535, 5538, 5541, 5544] ++
  [5547, 5550, 5553, 5556, 5559, 5562, 5565, 5568, 5571, 5574, 5578, 5581, 5584, 5587, 5590, 5593] ++
  [5596, 5599, 5602, 5605, 5608, 5611, 5614, 5617, 5621, 5624, 5627, 5630, 5633, 5636, 5639, 5642] ++
  [5645, 5648, 5651, 5654, 5657, 5660, 5663, 5667, 5670, 5673, 5676, 5679, 5682, 5685, 5688, 5691] ++
  [5694, 5697, 5700, 5703, 5706, 5709, 5713, 5716, 5719, 5722, 5725, 5728, 5731, 5734, 5737, 5740] ++
  [5743, 5746, 5749, 5752, 5755, 5759, 5762, 5765, 5768, 5771, 5774, 5777, 5780, 5783, 5786, 5789] ++
  [5792, 5795, 5798, 5802, 5805, 5808, 5811, 5814, 5817, 5820, 5823, 5826, 5829, 5832, 5835, 5838] ++
  [5841, 5844, 5848, 5851, 5854, 5857, 5860, 5863, 5866, 5869, 5872, 5875, 5878, 5881, 5884, 5887] ++
  [5890, 5894, 5897, 5900, 5903, 5906, 5909, 5912, 5915, 5918, 5921, 5924, 5927, 5930, 5933, 5937] ++
  [5940, 5943, 5946, 5949, 5952, 5955, 5958, 5961, 5964, 5967, 5970, 5973, 5976, 5979, 5983, 5986] ++
  [5989, 5992, 5995, 5998, 6001, 6004, 6007, 6010, 6013, 6016, 6019, 6022, 6025, 6029, 6032, 6035] ++
  [6038, 6041, 6044, 6047, 6050, 6053, 6056, 6059, 6062, 6065, 6068, 6071, 6075, 6078, 6081, 6084] ++
  [6087, 6090, 6093, 6096, 6099, 6102, 6105, 6108, 6111, 6114, 6118, 6121, 6124, 6127, 6130, 6133] ++
  [6136, 6139, 6142, 6145, 6148, 6151, 6154, 6157, 6160, 6164, 6167, 6170, 6173, 6176, 6179, 6182] ++
  [6185, 6188, 6191, 6194, 6197, 6200, 6203, 6206, 6210, 6213, 6216, 6219, 6222, 6225, 6228, 6231] ++
  [6234, 6237, 6240, 6243, 6246, 6249, 6253, 6256, 6259, 6262, 6265, 6268, 6271, 6274, 6277, 6280]

def yawRomPart0 : List Nat :=
  [0, 31, 62, 92, 123, 154, 185, 216, 246, 277, 308, 339, 370, 400, 431, 462] ++
  [493, 524, 554, 585, 616, 647, 678, 708, 739, 770, 801, 832, 862, 893, 924, 955] ++
  [986, 1016, 1047, 1078, 1109, 1140, 1170, 1201, 1232, 1263, 1294, 1324, 1355, 1386, 1417, 1448] ++
  [1478, 1509, 1540, 1571, 1602, 1632, 1663, 1694, 1725, 1756, 1786, 1817, 1848, 1879, 1910, 1940] ++
  [1971, 2002, 2033, 2064, 2094, 2125, 2156, 2187, 2218, 2248, 2279, 2310, 2341, 2372, 2402, 2433] ++
  [2464, 2495, 2526, 2556, 2587, 2618, 2649, 2680, 2710, 2741, 2772, 2803, 2834, 2864, 2895, 2926] ++
  [2957, 2988, 3018, 3049, 3080, 3111, 3142, 3172, 3203, 3234, 3265, 3296, 3326, 3357, 3388, 3419] ++
  [3450, 3480, 3511, 3542, 3573, 3604, 3634, 3665, 3696, 3727, 3758, 3788, 3819, 3850, 3881, 3912] ++
  [3942, 3973, 4004, 4035, 4066, 4096, 4127, 4158, 4189, 4220, 4250, 4281, 4312, 4343, 4374, 4404] ++
  [4435, 4466, 4497, 4528, 4558, 4589, 4620, 4651, 4682, 4712, 4743, 4774, 4805, 4836, 4866, 4897] ++
  [4928, 4959, 4990, 5020, 5051, 5082, 5113, 5144, 5174, 5205, 5236, 5267, 5298, 5328, 5359, 5390] ++
  [5421, 5452, 5482, 5513, 5544, 5575, 5606, 5636, 5667, 5698, 5729, 5760, 5790, 5821, 5852, 5883] ++
  [5914, 5944, 5975, 6006, 6037, 6068, 6098, 6129, 6160, 6191, 6222, 6252, 6283, 6314, 6345, 6376] ++
  [6406, 6437, 6468, 6499, 6530, 6560, 6591, 6622, 6653, 6684, 6714, 6745, 6776, 6807, 6838, 6868] ++
  [6899, 6930, 6961, 6992, 7022, 7053, 7084, 7115, 7146, 7176, 7207, 7238, 7269, 7300, 7330, 7361] ++
  [7392, 7423, 7454, 7484, 7515, 7546, 7577, 7608, 7638, 7669, 7700, 7731, 7762, 7792, 7823, 7854]

def yawRomPart1 : List Nat :=
  [7885, 7916, 7946, 7977, 8008, 8039, 8070, 8100, 8131, 8162, 8193, 8224, 8254, 8285, 8316, 8347] ++
  [8378, 8408, 8439, 8470, 8501, 8532, 8562, 8593, 8624, 8655, 8686, 8716, 8747, 8778, 8809, 8840] ++
  [8870, 8901, 8932, 8963, 8994, 9024, 9055, 9086, 9117, 9148, 9178, 9209, 9240, 9271, 9302, 9332] ++
  [9363, 9394, 9425, 9456, 9486, 9517, 9548, 9579, 9610, 9640, 9671, 9702, 9733, 9764, 9794, 9825] ++
  [9856, 9887, 9918, 9948, 9979, 10010, 10041, 10072, 10102, 10133, 10164, 10195, 10226, 10256, 10287, 10318] ++
  [10349, 10380, 10410, 10441, 10472, 10503, 10534, 10564, 10595, 10626, 10657, 10688, 10718, 10749, 10780, 10811] ++
  [10842, 10872, 10903, 10934, 10965, 10996, 11026, 11057, 11088, 11119, 11150, 11180, 11211, 11242, 11273, 11304] ++
  [11334, 11365, 11396, 11427, 11458, 11488, 11519, 11550, 11581, 11612, 11642, 11673, 11704, 11735, 11766, 11796] ++
  [11827, 11858, 11889, 11920, 11950, 11981, 12012, 12043, 12074, 12104, 12135, 12166, 12197, 12228, 12258, 12289] ++
  [12320, 12351, 12382, 12412, 12443, 12474, 12505, 12536, 12566, 12597, 12628, 12659, 12690, 12720, 12751, 12782] ++
  [12813, 12844, 12874, 12905, 12936, 12967, 12998, 13028, 13059, 13090, 13121, 13152, 13182, 13213, 13244, 13275] ++
  [13306, 13336, 13367, 13398, 13429, 13460, 13490, 13521, 13552, 13583, 13614, 13644, 13675, 13706, 13737, 13768] ++
  [13798, 13829, 13860, 13891, 13922, 13952, 13983, 14014, 14045, 14076, 14106, 14137, 14168, 14199, 14230, 14260] ++
  [14291, 14322, 14353, 14384, 14414, 14445, 14476, 14507, 14538, 14568, 14599, 14630, 14661, 14692, 14722, 14753] ++
  [14784, 14815, 14846, 14876, 14907, 14938, 14969, 15000, 15030, 15061, 15092, 15123, 15154, 15184, 15215, 15246] ++
  [15277, 15308, 15338, 15369, 15400, 15431, 15462, 15492, 15523, 15554, 15585, 15616, 15646, 15677, 15708, 15739]

def yawRomPart2 : List Nat :=
  [15770, 15800, 15831, 15862, 15893, 15924, 15954, 15985, 16016, 16047, 16078, 16108, 16139, 16170, 16201, 16232] ++
  [16262, 16293, 16324, 16355, 16386, 16416, 16447, 16478, 16509, 16540, 16570, 16601, 16632, 16663, 16694, 16724] ++
  [16755, 16786, 16817, 16848, 16878, 16909, 16940, 16971, 17002, 17032, 17063, 17094, 17125, 17156, 17186, 17217] ++
  [17248, 17279, 17310, 17340, 17371, 17402, 17433, 17464, 17494, 17525, 17556, 17587, 17618, 17648, 17679, 17710] ++
  [17741, 17772, 17802, 17833, 17864, 17895, 17926, 17956, 17987, 18018, 18049, 18080, 18110, 18141, 18172, 18203] ++
  [18234, 18264, 18295, 18326, 18357, 18388, 18418, 18449, 18480, 18511, 18542, 18572, 18603, 18634, 18665, 18696] ++
  [18726, 18757, 18788, 18819, 18850, 18880, 18911, 18942, 18973, 19004, 19034, 19065, 19096, 19127, 19158, 19188] ++
  [19219, 19250, 19281, 19312, 19342, 19373, 19404, 19435, 19466, 19496, 19527, 19558, 19589, 19620, 19650, 19681] ++
  [19712, 19743, 19774, 19804, 19835, 19866, 19897, 19928, 19958, 19989, 20020, 20051, 20082, 20112, 20143, 20174] ++
  [20205, 20236, 20266, 20297, 20328, 20359, 20390, 20420, 20451, 20482, 20513, 20544, 20574, 20605, 20636, 20667] ++
  [20698, 20728, 20759, 20790, 20821, 20852, 20882, 20913, 20944, 20975, 21006, 21036, 21067, 21098, 21129, 21160] ++
  [21190, 21221, 21252, 21283, 21314, 21344, 21375, 21406, 21437, 21468, 21498, 21529, 21560, 21591, 21622, 21652] ++
  [21683, 21714, 21745, 21776, 21806, 21837, 21868, 21899, 21930, 21960, 21991, 22022, 22053, 22084, 22114, 22145] ++
  [22176, 22207, 22238, 22268, 22299, 22330, 22361, 22392, 22422, 22453, 22484, 22515, 22546, 22576, 22607, 22638] ++
  [22669, 22700, 22730, 22761, 22792, 22823, 22854, 22884, 22915, 22946, 22977, 23008, 23038, 23069, 23100, 23131] ++
  [23162, 23192, 23223, 23254, 23285, 23316, 23346, 23377, 23408, 23439, 23470, 23500, 23531, 23562, 23593, 23624]

def yawRomPart3 : List Nat :=
  [23654, 23685, 23716, 23747, 23778, 23808, 23839, 23870, 23901, 23932, 23962, 23993, 24024, 24055, 24086, 24116] ++
  [24147, 24178, 24209, 24240, 24270, 24301, 24332, 24363, 24394, 24424, 24455, 24486, 24517, 24548, 24578, 24609] ++
  [24640, 24671, 24702, 24732, 24763, 24794, 24825, 24856, 24886, 24917, 24948, 24979, 25010, 25040, 25071, 25102] ++
  [25133, 25164, 25194, 25225, 25256, 25287, 25318, 25348, 25379, 25410, 25441, 25472, 25502, 25533, 25564, 25595] ++
  [25626, 25656, 25687, 25718, 25749, 25780, 25810, 25841, 25872, 25903, 25934, 25964, 25995, 26026, 26057, 26088] ++
  [26118, 26149, 26180, 26211, 26242, 26272, 26303, 26334, 26365, 26396, 26426, 26457, 26488, 26519, 26550, 26580] ++
  [26611, 26642, 26673, 26704, 26734, 26765, 26796, 26827, 26858, 26888, 26919, 26950, 26981, 27012, 27042, 27073] ++
  [27104, 27135, 27166, 27196, 27227, 27258, 27289, 27320, 27350, 27381, 27412, 27443, 27474, 27504, 27535, 27566] ++
  [27597, 27628, 27658, 27689, 27720, 27751, 27782, 27812, 27843, 27874, 27905, 27936, 27966, 27997, 28028, 28059] ++
  [28090, 28120, 28151, 28182, 28213, 28244, 28274, 28305, 28336, 28367, 28398, 28428, 28459, 28490, 28521, 28552] ++
  [28582, 28613, 28644, 28675, 28706, 28736, 28767, 28798, 28829, 28860, 28890, 28921, 28952, 28983, 29014, 29044] ++
  [29075, 29106, 29137, 29168, 29198, 29229, 29260, 29291, 29322, 29352, 29383, 29414, 29445, 29476, 29506, 29537] ++
  [29568, 29599, 29630, 29660, 29691, 29722, 29753, 29784, 29814, 29845, 29876, 29907, 29938, 29968, 29999, 30030] ++
  [30061, 30092, 30122, 30153, 30184, 30215, 30246, 30276, 30307, 30338, 30369, 30400, 30430, 30461, 30492, 30523] ++
  [30554, 30584, 30615, 30646, 30677, 30708, 30738, 30769, 30800, 30831, 30862, 30892, 30923, 30954, 30985, 31016] ++
  [31046, 31077, 31108, 31139, 31170, 31200, 31231, 31262, 31293, 31324, 31354, 31385, 31416, 31447, 31478, 31508]

def yawRomPart4 : List Nat :=
  [31539, 31570, 31601, 31632, 31662, 31693, 31724, 31755, 31786, 31816, 31847, 31878, 31909, 31940, 31970, 32001] ++
  [32032, 32063, 32094, 32124, 32155, 32186, 32217, 32248, 32278, 32309, 32340, 32371, 32402, 32432, 32463, 32494] ++
  [32525, 32556, 32586, 32617, 32648, 32679, 32710, 32740, 32771, 32802, 32833, 32864, 32894, 32925, 32956, 32987] ++
  [33018, 33048, 33079, 33110, 33141, 33172, 33202, 33233, 33264, 33295, 33326, 33356, 33387, 33418, 33449, 33480] ++
  [33510, 33541, 33572, 33603, 33634, 33664, 33695, 33726, 33757, 33788, 33818, 33849, 33880, 33911, 33942, 33972] ++
  [34003, 34034, 34065, 34096, 34126, 34157, 34188, 34219, 34250, 34280, 34311, 34342, 34373, 34404, 34434, 34465] ++
  [34496, 34527, 34558, 34588, 34619, 34650, 34681, 34712, 34742, 34773, 34804, 34835, 34866, 34896, 34927, 34958] ++
  [34989, 35020, 35050, 35081, 35112, 35143, 35174, 35204, 35235, 35266, 35297, 35328, 35358, 35389, 35420, 35451] ++
  [35482, 35512, 35543, 35574, 35605, 35636, 35666, 35697, 35728, 35759, 35790, 35820, 35851, 35882, 35913, 35944] ++
  [35974, 36005, 36036, 36067, 36098, 36128, 36159, 36190, 36221, 36252, 36282, 36313, 36344, 36375, 36406, 36436] ++
  [36467, 36498, 36529, 36560, 36590, 36621, 36652, 36683, 36714, 36744, 36775, 36806, 36837, 36868, 36898, 36929] ++
  [36960, 36991, 37022, 37052, 37083, 37114, 37145, 37176, 37206, 37237, 37268, 37299, 37330, 37360, 37391, 37422] ++
  [37453, 37484, 37514, 37545, 37576, 37607, 37638, 37668, 37699, 37730, 37761, 37792, 37822, 37853, 37884, 37915] ++
  [37946, 37976, 38007, 38038, 38069, 38100, 38130, 38161, 38192, 38223, 38254, 38284, 38315, 38346, 38377, 38408] ++
  [38438, 38469, 38500, 38531, 38562, 38592, 38623, 38654, 38685, 38716, 38746, 38777, 38808, 38839, 38870, 38900] ++
  [38931, 38962, 38993, 39024, 39054, 39085, 39116, 39147, 39178, 39208, 39239, 39270, 39301, 39332, 39362, 39393]

def yawRomPart5 : List Nat :=
  [39424, 39455, 39486, 39516, 39547, 39578, 39609, 39640, 39670, 39701, 39732, 39763, 39794, 39824, 39855, 39886] ++
  [39917, 39948, 39978, 40009, 40040, 40071, 40102, 40132, 40163, 40194, 40225, 40256, 40286, 40317, 40348, 40379] ++
  [40410, 40440, 40471, 40502, 40533, 40564, 40594, 40625, 40656, 40687, 40718, 40748, 40779, 40810, 40841, 40872] ++
  [40902, 40933, 40964, 40995, 41026, 41056, 41087, 41118, 41149, 41180, 41210, 41241, 41272, 41303, 41334, 41364] ++
  [41395, 41426, 41457, 41488, 41518, 41549, 41580, 41611, 41642, 41672, 41703, 41734, 41765, 41796, 41826, 41857] ++
  [41888, 41919, 41950, 41980, 42011, 42042, 42073, 42104, 42134, 42165, 42196, 42227, 42258, 42288, 42319, 42350] ++
  [42381, 42412, 42442, 42473, 42504, 42535, 42566, 42596, 42627, 42658, 42689, 42720, 42750, 42781, 42812, 42843] ++
  [42873, 42904, 42935, 42966, 42997, 43027, 43058, 43089, 43120, 43151, 43181, 43212, 43243, 43274, 43305, 43335] ++
  [43366, 43397, 43428, 43459, 43489, 43520, 43551, 43582, 43613, 43643, 43674, 43705, 43736, 43767, 43797, 43828] ++
  [43859, 43890, 43921, 43951, 43982, 44013, 44044, 44075, 44105, 44136, 44167, 44198, 44229, 44259, 44290, 44321] ++
  [44352, 44383, 44413, 44444, 44475, 44506, 44537, 44567, 44598, 44629, 44660, 44691, 44721, 44752, 44783, 44814] ++
  [44845, 44875, 44906, 44937, 44968, 44999, 45029, 45060, 45091, 45122, 45153, 45183, 45214, 45245, 45276, 45307] ++
  [45337, 45368, 45399, 45430, 45461, 45491, 45522, 45553, 45584, 45615, 45645, 45676, 45707, 45738, 45769, 45799] ++
  [45830, 45861, 45892, 45923, 45953, 45984, 46015, 46046, 46077, 46107, 46138, 46169, 46200, 46231, 46261, 46292] ++
  [46323, 46354, 46385, 46415, 46446, 46477, 46508, 46539, 46569, 46600, 46631, 46662, 46693, 46723, 46754, 46785] ++
  [46816, 46847, 46877, 46908, 46939, 46970, 47001, 47031, 47062, 47093, 47124, 47155, 47185, 47216, 47247, 47278]

def yawRomPart6 : List Nat :=
  [47309, 47339, 47370, 47401, 47432, 47463, 47493, 47524, 47555, 47586, 47617, 47647, 47678, 47709, 47740, 47771] ++
  [47801, 47832, 47863, 47894, 47925, 47955, 47986, 48017, 48048, 48079, 48109, 48140, 48171, 48202, 48233, 48263] ++
  [48294, 48325, 48356, 48387, 48417, 48448, 48479, 48510, 48541, 48571, 48602, 48633, 48664, 48695, 48725, 48756] ++
  [48787, 48818, 48849, 48879, 48910, 48941, 48972, 49003, 49033, 49064, 49095, 49126, 49157, 49187, 49218, 49249] ++
  [49280, 49311, 49341, 49372, 49403, 49434, 49465, 49495, 49526, 49557, 49588, 49619, 49649, 49680, 49711, 49742] ++
  [49773, 49803, 49834, 49865, 49896, 49927, 49957, 49988, 50019, 50050, 50081, 50111, 50142, 50173, 50204, 50235] ++
  [50265, 50296, 50327, 50358, 50389, 50419, 50450, 50481, 50512, 50543, 50573, 50604, 50635, 50666, 50697, 50727] ++
  [50758, 50789, 50820, 50851, 50881, 50912, 50943, 50974, 51005, 51035, 51066, 51097, 51128, 51159, 51189, 51220] ++
  [51251, 51282, 51313, 51343, 51374, 51405, 51436, 51467, 51497, 51528, 51559, 51590, 51621, 51651, 51682, 51713] ++
  [51744, 51775, 51805, 51836, 51867, 51898, 51929, 51959, 51990, 52021, 52052, 52083, 52113, 52144, 52175, 52206] ++
  [52237, 52267, 52298, 52329, 52360, 52391, 52421, 52452, 52483, 52514, 52545, 52575, 52606, 52637, 52668, 52699] ++
  [52729, 52760, 52791, 52822, 52853, 52883, 52914, 52945, 52976, 53007, 53037, 53068, 53099, 53130, 53161, 53191] ++
  [53222, 53253, 53284, 53315, 53345, 53376, 53407, 53438, 53469, 53499, 53530, 53561, 53592, 53623, 53653, 53684] ++
  [53715, 53746, 53777, 53807, 53838, 53869, 53900, 53931, 53961, 53992, 54023, 54054, 54085, 54115, 54146, 54177] ++
  [54208, 54239, 54269, 54300, 54331, 54362, 54393, 54423, 54454, 54485, 54516, 54547, 54577, 54608, 54639, 54670] ++
  [54701, 54731, 54762, 54793, 54824, 54855, 54885, 54916, 54947, 54978, 55009, 55039, 55070, 55101, 55132, 55163]

def yawRomPart7 : List Nat :=
  [55193, 55224, 55255, 55286, 55317, 55347, 55378, 55409, 55440, 55471, 55501, 55532, 55563, 55594, 55625, 55655] ++
  [55686, 55717, 55748, 55779, 55809, 55840, 55871, 55902, 55933, 55963, 55994, 56025, 56056, 56087, 56117, 56148] ++
  [56179, 56210, 56241, 56271, 56302, 56333, 56364, 56395, 56425, 56456, 56487, 56518, 56549, 56579, 56610, 56641] ++
  [56672, 56703, 56733, 56764, 56795, 56826, 56857, 56887, 56918, 56949, 56980, 57011, 57041, 57072, 57103, 57134] ++
  [57165, 57195, 57226, 57257, 57288, 57319, 57349, 57380, 57411, 57442, 57473, 57503, 57534, 57565, 57596, 57627] ++
  [57657, 57688, 57719, 57750, 57781, 57811, 57842, 57873, 57904, 57935, 57965, 57996, 58027, 58058, 58089, 58119] ++
  [58150, 58181, 58212, 58243, 58273, 58304, 58335, 58366, 58397, 58427, 58458, 58489, 58520, 58551, 58581, 58612] ++
  [58643, 58674, 58705, 58735, 58766, 58797, 58828, 58859, 58889, 58920, 58951, 58982, 59013, 59043, 59074, 59105] ++
  [59136, 59167, 59197, 59228, 59259, 59290, 59321, 59351, 59382, 59413, 59444, 59475, 59505, 59536, 59567, 59598] ++
  [59629, 59659, 59690, 59721, 59752, 59783, 59813, 59844, 59875, 59906, 59937, 59967, 59998, 60029, 60060, 60091] ++
  [60121, 60152, 60183, 60214, 60245, 60275, 60306, 60337, 60368, 60399, 60429, 60460, 60491, 60522, 60553, 60583] ++
  [60614, 60645, 60676, 60707, 60737, 60768, 60799, 60830, 60861, 60891, 60922, 60953, 60984, 61015, 61045, 61076] ++
  [61107, 61138, 61169, 61199, 61230, 61261, 61292, 61323, 61353, 61384, 61415, 61446, 61477, 61507, 61538, 61569] ++
  [61600, 61631, 61661, 61692, 61723, 61754, 61785, 61815, 61846, 61877, 61908, 61939, 61969, 62000, 62031, 62062] ++
  [62093, 62123, 62154, 62185, 62216, 62247, 62277, 62308, 62339, 62370, 62401, 62431, 62462, 62493, 62524, 62555] ++
  [62585, 62616, 62647, 62678, 62709, 62739, 62770, 62801, 62832, 62863, 62893, 62924, 62955, 62986, 63017, 63047]

/-- ROLL_ROM (R180). -/
def rollRom : List Nat :=
  rollRomPart0 ++ rollRomPart1 ++ rollRomPart2 ++ rollRomPart3 ++ rollRomPart4 ++ rollRomPart5 ++ rollRomPart6 ++ rollRomPart7

/-- YAW_ROM (R180). -/
def yawRom : List Nat :=
  yawRomPart0 ++ yawRomPart1 ++ yawRomPart2 ++ yawRomPart3 ++ yawRomPart4 ++ yawRomPart5 ++ yawRomPart6 ++ yawRomPart7

theorem roll_eq_rom : (List.range 2048).map roll = rollRom := by decide +kernel

theorem pitch_eq_rom : (List.range 1024).map pitch = rollRom.take 1024 := by decide +kernel

theorem yaw_eq_rom : (List.range 2048).map yaw = yawRom := by decide +kernel

/-- The check sums of R181. -/
theorem rom_sums : rollRom.sum = 6430839 ∧ (rollRom.take 1024).sum = 1606923 ∧ yawRom.sum = 64560611 := by decide +kernel

end Sys2Proof.Machine
end

