-- ==== Sys2Proof/Laws/Views.lean ====
section
/-! SUPPORT. The degree view of an angle (spec 43_store_host.md R172) as a real number. -/

namespace Sys2Proof.Machine

/-- `deg = (mrad / 1000) * 180 / π`, times π, is the rational of the model. -/
theorem degreesTimesPi_eq (mrad : Int) : (mrad : ℝ) / 1000 * 180 / Real.pi * Real.pi = (degreesTimesPi mrad : ℝ) := by
  rw [div_mul_cancel₀ _ Real.pi_ne_zero]
  simp [degreesTimesPi]

end Sys2Proof.Machine
end

