-- ==== Sys2Proof/Tests/Slice0.lean ====
section
/-! SUPPORT. The model's own tests: ill-formed terms that WellFormed refuses; words and frames written out from the spec's
encodings; one step per instruction and per synchronizer branch, expected results from spec 95_test_vectors.md; and for each
statement with hypotheses a witness that meets them. CRC values are those of T07 (40_crc8.md R106). -/

namespace Sys2Proof.Tests

set_option Elab.async false

open Sys2Proof.Machine

/-! ### Helpers -/

/-- The next state, if there is one. -/
def next? (o : Host.Outcome State Fault Refusal) : Option State :=
  match o with
  | .next s => some s
  | _       => none

/-- The reset state with the reference table. -/
def bare : State := { State.reset with params := ⟨t07, Layout.default⟩ }

/-- The same with inputs. -/
def offering (is : List Input) : State := { bare with inputs := is }

/-- A candidate with these first bytes, and one byte offered. -/
def candidate (F : List Byte) (expected : Cursor) (b : Byte) : State :=
  { offering [.byte b []] with buf := Memory.writeAll [] 0 F, idx := BitVec.ofNat 9 F.length, expectedSize := expected }

/-- A frame complete in the buffer, its CRC byte offered with an interleaving. -/
def placed (F : List Byte) (during : List SchedItem) : State :=
  { State.placeFrame State.reset t07 Layout.default F with inputs := [.byte (crc8 t07 (F.drop 1)) during] }

/-- Cursor, events and `fresh` after a step. -/
def outcome (s : State) : Option (Nat × Nat × List Event) :=
  (next? (step s)).map fun t => (t.idx.toNat, t.expectedSize.toNat, t.events)

/-- What a consumer reads after a step. -/
def readings (s : State) (ns : List SlotName) : Option (List (Option Int)) :=
  (next? (step s)).map fun t => ns.map t.store.read

def freshAfterStep (s : State) : Option Bool := (next? (step s)).map fun t => t.fresh

/-! ### Frames of 95_test_vectors.md -/

def v30 : List Byte :=
  [0xFE, 0x1B, 0x07, 0x02, 0x00, 0x02, 0x68, 0x06, 0xDC, 0x05, 0x00, 0x00, 0x30, 0xF8, 0xFF, 0xFF] ++
  [0x2C, 0x01, 0x00, 0x00, 0x0A, 0x00, 0xEC, 0xFF, 0x00, 0x00, 0x74, 0x0E, 0x0F, 0x01, 0x05]

def v30a : List Byte :=
  [0xFE, 0x1B, 0xFF, 0x02, 0xFF, 0xFF, 0xFF, 0xFF, 0x00, 0x00, 0x00, 0x80, 0xFF, 0xFF, 0xFF, 0x7F] ++
  [0xFF, 0xFF, 0xFF, 0xFF, 0x00, 0x80, 0xFF, 0x7F, 0xFF, 0xFF, 0xFF, 0xFF, 0xFF, 0xFF, 0xFF]

/-- V30c: one byte short. -/
def v30c : List Byte := [0xFE, 0x1A] ++ (v30.drop 2).take 28

/-- V30d: two bytes long. -/
def v30d : List Byte := [0xFE, 0x1D] ++ v30.drop 2 ++ [0xAA, 0xBB]

def v32 : List Byte := [0xFE, 0x0C, 0x07, 0x08, 0x34, 0x12, 0x00, 0x00, 0x01, 0x02, 0x00, 0x10, 0xA0, 0x86, 0x01, 0x00]
def v33 : List Byte := [0xFE, 0x0B, 0x07, 0x08, 0x34, 0x12, 0x00, 0x00, 0x01, 0x02, 0x00, 0x10, 0xA0, 0x86, 0x01]
def v34 : List Byte := [0xFE, 0x0B, 0x07, 0x18, 0x03, 0x01, 0x2A, 0x04, 0x01, 0xEF, 0xBE, 0xAD, 0xDE, 0x01, 0x02]
def v34a : List Byte := [0xFE, 0x0A, 0x07, 0x18, 0x03, 0x01, 0x2A, 0x04, 0x01, 0xEF, 0xBE, 0xAD, 0xDE, 0x01]
def v35 : List Byte := [0xFE, 0x06, 0x05, 0x1D, 0x64, 0x00, 0x38, 0xFF, 0x00, 0x40]
def v35a : List Byte := [0xFE, 0x06, 0x01, 0x1D, 0x00, 0x80, 0xFF, 0x7F, 0xFF, 0xFF]
def v35b : List Byte := [0xFE, 0x05, 0x05, 0x1D, 0x64, 0x00, 0x38, 0xFF, 0x00]
def v36 : List Byte := [0xFE, 0x08, 0x05, 0x33, 0xD8, 0xFF, 0xC9, 0xFF, 0xC3, 0xFF, 0xBA, 0xFF]
def v37 : List Byte := [0xFE, 0x09, 0x05, 0x33, 0xD8, 0xFF, 0xC9, 0xFF, 0xC3, 0xFF, 0xBA, 0xFF, 0x00]
def v38 : List Byte := [0xFE, 0x00, 0x09, 0x99]
def v39 : List Byte := [0xFE, 0x08, 0x05, 0x33, 0xFE, 0xFF, 0xFE, 0xFF, 0xFE, 0x00, 0xFF, 0xFE]

/-- The instruction of V30; 0x06680200 is the orientation word. -/
def i30 : Instr := .telemetry 7 0x06680200 1500 0xFFFFF830 300 10 0xFFEC 0 3700 0x0F 1 5 []

/-- The instruction of V30a. -/
def i30a : Instr :=
  .telemetry 255 0xFFFFFFFF 0x80000000 0x7FFFFFFF 0xFFFFFFFF 0x8000 0x7FFF 0xFFFF 0xFFFF 0xFF 0xFF 0xFF []

/-! ### WellFormed: one ill-formed term per check -/

theorem test_wf_telemetry_too_long :
    Instr.wf Layout.default (.telemetry 0 0 0 0 0 0 0 0 0 0 0 0 (List.replicate 229 0)) = false := by decide +kernel

theorem test_wf_telemetry_longest :
    Instr.wf Layout.default (.telemetry 0 0 0 0 0 0 0 0 0 0 0 0 (List.replicate 228 0)) = true := by decide +kernel

theorem test_wf_sysStatus_identifier_fits : Layout.default.sysIdentifier.fits 0xFFFFFFFF = true := by decide

theorem test_wf_sysStatus_configStatus : Instr.wf Layout.default (.sysStatus 0 0 256 0 0 0) = false := by decide
theorem test_wf_sysStatus_logStatus : Instr.wf Layout.default (.sysStatus 0 0 0 256 0 0) = false := by decide
theorem test_wf_sysStatus_loggerCapacity : Instr.wf Layout.default (.sysStatus 0 0 0 0 65536 0) = false := by decide

/-- Identifier and log size fill their default fields; a narrower layout refuses them. -/
def narrowSys : Layout :=
  { Layout.default with sysIdentifier := ⟨4, .two, false⟩, sysLogSize := ⟨12, .two, false⟩ }

theorem test_wf_sysStatus_identifier : Instr.wf narrowSys (.sysStatus 0 65536 0 0 0 0) = false := by decide
theorem test_wf_sysStatus_logSize : Instr.wf narrowSys (.sysStatus 0 0 0 0 0 65536) = false := by decide

theorem test_wf_info_hwId : Instr.wf Layout.default (.info 0 256 0 0 0 0 0 0 []) = false := by decide
theorem test_wf_info_fwType : Instr.wf Layout.default (.info 0 0 256 0 0 0 0 0 []) = false := by decide
theorem test_wf_info_fwVersion : Instr.wf Layout.default (.info 0 0 0 256 0 0 0 0 []) = false := by decide
theorem test_wf_info_protoMinor : Instr.wf Layout.default (.info 0 0 0 0 256 0 0 0 []) = false := by decide
theorem test_wf_info_protoMajor : Instr.wf Layout.default (.info 0 0 0 0 0 256 0 0 []) = false := by decide
theorem test_wf_info_too_long : Instr.wf Layout.default (.info 0 0 0 0 0 0 0 0 (List.replicate 245 0)) = false := by decide +kernel
theorem test_wf_rawAccel_too_long : Instr.wf Layout.default (.rawAccel 0 0 0 0 (List.replicate 250 0)) = false := by decide +kernel
theorem test_wf_strength_always : Instr.wf Layout.default (.strength 0 0 0 0 0) = true := by decide
theorem test_wf_unrecognized_too_long :
    Instr.wf Layout.default (.unrecognized .unrecognizedTag 0 0x99 (List.replicate 256 0)) = false := by decide +kernel
theorem test_wf_unrecognized_wrong_reason :
    Instr.wf Layout.default (.unrecognized .unrecognizedTag 0 0x02 []) = false := by decide
theorem test_wf_unrecognized_other_row :
    Instr.wf Layout.default (.unrecognized .lengthMismatch 0 0x33 (List.replicate 8 0)) = false := by decide
theorem test_wf_unrecognized_short : Instr.wf Layout.default (.unrecognized .shortFrame 0 0x02 []) = true := by decide

/-! ### Layouts that R75 does not admit -/

theorem test_layout_offset_in_header : Layout.wf { Layout.default with lvl0 := ⟨3, .two, true⟩ } = false := by decide
theorem test_layout_overlap : Layout.wf { Layout.default with hwId := ⟨5, .one, false⟩ } = false := by decide
theorem test_layout_past_the_sys_gate :
    Layout.wf { Layout.default with sysLogSize := ⟨13, .four, false⟩ } = false := by decide
theorem test_layout_past_the_strength_gate : Layout.wf { Layout.default with lvl3 := ⟨11, .two, true⟩ } = false := by decide
theorem test_layout_width : Layout.wf { Layout.default with posErr := ⟨30, .two, false⟩ } = false := by decide
theorem test_layout_sign : Layout.wf { Layout.default with accX := ⟨4, .two, false⟩ } = false := by decide
theorem test_layout_sys_unsigned : Layout.wf { Layout.default with sysLogSize := ⟨12, .four, true⟩ } = false := by decide
theorem test_layout_narrow_sys_admitted : narrowSys.wf = true := by decide

/-- The canonical form of the buffer. -/
theorem test_memory_canonical :
    Memory.wf [(0, 0xFE), (1, 4)] = true ∧ Memory.wf [(1, 4), (0, 0xFE)] = false ∧ Memory.wf [(0, 1), (0, 1)] = false ∧
    Memory.wf [(259, 0)] = true ∧ Memory.wf [(260, 0)] = false := by decide

/-! ### Decoding: each family's word or frame, bit by bit (R71, R76 to R80) -/

/-- F[0] = 11111110, F[1] = 00011011 (27), F[2] = 00000111, F[3] = 00000010; payload as R76 lays it out (V30). -/
theorem test_decode_telemetry : decode Layout.default v30 = .ok i30 := by decide +kernel

/-- V30a: every signed field at an end of its range. -/
theorem test_decode_telemetry_ones : decode Layout.default v30a = .ok i30a := by decide +kernel

/-- H[31:24] = 00000010, H[23:16] = 00000111, H[15:8] = 00011011, H[7:0] = 11111110; N = 27 zero bytes behind it. -/
theorem test_word_telemetry :
    decodeTableWord 32 0b00000010000001110001101111111110 = some (.telemetry 7 0 0 0 0 0 0 0 0 0 0 0 []) := by
  decide +kernel

theorem test_decode_sysStatus : decode Layout.default v32 = .ok (.sysStatus 7 0x1234 1 2 4096 100000) := by decide +kernel

/-- H = 00001000 aaaaaaaa 00001100 11111110. -/
theorem test_word_sysStatus :
    decodeTableWord 32 0b00001000000001110000110011111110 = some (.sysStatus 7 0 0 0 0 0) := by decide +kernel

theorem test_decode_info : decode Layout.default v34 = .ok (.info 7 3 1 42 4 1 0xDEADBEEF 513 []) := by decide +kernel

/-- H = 00011000 aaaaaaaa 00001011 11111110, N = 11. -/
theorem test_word_info :
    decodeTableWord 32 0b00011000000001110000101111111110 = some (.info 7 0 0 0 0 0 0 0 []) := by decide +kernel

theorem test_decode_rawAccel : decode Layout.default v35 = .ok (.rawAccel 5 100 0xFF38 16384 []) := by decide +kernel

/-- H = 00011101 aaaaaaaa 00000110 11111110, N = 6. -/
theorem test_word_rawAccel :
    decodeTableWord 32 0b00011101000001010000011011111110 = some (.rawAccel 5 0 0 0 []) := by decide +kernel

theorem test_decode_strength : decode Layout.default v36 = .ok (.strength 5 0xFFD8 0xFFC9 0xFFC3 0xFFBA) := by
  decide +kernel

/-- H = 00110011 aaaaaaaa 00001000 11111110. -/
theorem test_word_strength :
    decodeTableWord 32 0b00110011000001010000100011111110 = some (.strength 5 0 0 0 0) := by decide +kernel

/-- V38, V30c, V33, V34a, V35b, V37: the three reasons. -/
theorem test_decode_unrecognized :
    decode Layout.default v38 = .ok (.unrecognized .unrecognizedTag 9 0x99 []) ∧
    decode Layout.default v30c = .ok (.unrecognized .shortFrame 7 0x02 (v30c.drop 4)) ∧
    decode Layout.default v33 = .ok (.unrecognized .lengthMismatch 7 0x08 (v33.drop 4)) ∧
    decode Layout.default v34a = .ok (.unrecognized .shortFrame 7 0x18 (v34a.drop 4)) ∧
    decode Layout.default v35b = .ok (.unrecognized .shortFrame 5 0x1D (v35b.drop 4)) ∧
    decode Layout.default v37 = .ok (.unrecognized .lengthMismatch 5 0x33 (v37.drop 4)) := by decide +kernel

/-- H = 10011001 aaaaaaaa 00000000 11111110. -/
theorem test_word_unrecognized :
    decodeTableWord 32 0b10011001000010010000000011111110 = some (.unrecognized .unrecognizedTag 9 0x99 []) := by
  decide +kernel

/-- Bytes that are no stored frame are rejected by name. -/
theorem test_decode_rejects :
    decode Layout.default [0xFE, 0x00, 0x09] = .error .headerMissing ∧
    decode Layout.default [0xFD, 0x00, 0x09, 0x99] = .error .noStartMarker ∧
    decode Layout.default [0xFE, 0x01, 0x09, 0x99] = .error .lengthDisagrees := by decide +kernel

/-- The encoder writes the frames of the vectors; V30d keeps its two trailing bytes. -/
theorem test_encode_vectors :
    encode Layout.default i30 = v30 ∧ encode Layout.default i30a = v30a ∧
    encode Layout.default (.sysStatus 7 0x1234 1 2 4096 100000) = v32 ∧
    encode Layout.default (.info 7 3 1 42 4 1 0xDEADBEEF 513 []) = v34 ∧
    encode Layout.default (.rawAccel 1 0x8000 0x7FFF 0xFFFF []) = v35a ∧
    encode Layout.default (.strength 5 0xFFFE 0xFFFE 254 0xFEFF) = v39 ∧
    encode Layout.default (.telemetry 7 0x06680200 1500 0xFFFFF830 300 10 0xFFEC 0 3700 0x0F 1 5 [0xAA, 0xBB]) = v30d := by
  decide +kernel

/-! ### The CRC engine (V1 to V17) -/

theorem test_crc_small :
    crc8 t07 [] = 0x00 ∧ crc8 t07 [0x00] = 0x00 ∧ crc8 t07 [0x01] = 0x07 ∧ crc8 t07 [0x80] = 0x89 ∧ crc8 t07 [0xFF] = 0xF3 ∧
    crc8 t07 [0xFE] = 0xF4 ∧ crc8 t07 [0x01, 0x02] = 0x1B ∧ crc8 t07 [0, 0, 0] = 0x00 ∧
    crc8 t07 [0x31, 0x32, 0x33, 0x34, 0x35, 0x36, 0x37, 0x38, 0x39] = 0xF4 := by decide +kernel

theorem test_crc_frames :
    crc8 t07 (v36.drop 1) = 0xFC ∧ crc8 t07 (v35.drop 1) = 0xC1 ∧ crc8 t07 (v38.drop 1) = 0x7B ∧
    crc8 t07 (v32.drop 1) = 0x84 ∧ crc8 t07 (v33.drop 1) = 0x5B ∧ crc8 t07 (v34.drop 1) = 0x82 ∧
    crc8 t07 (v30.drop 1) = 0xC8 ∧ crc8 t07 (v39.drop 1) = 0xE3 := by decide +kernel

theorem test_wire_v36 : encodeWire t07 Layout.default (.strength 5 0xFFD8 0xFFC9 0xFFC3 0xFFBA) = v36 ++ [0xFC] := by
  decide +kernel

/-! ### Angles (V40 to V53; S5) -/

/-- The angles of an orientation word. -/
def angles (raw : Word32) : Nat × Nat × Nat :=
  (roll (rollField raw).toNat, pitch (pitchField raw).toNat, yaw (yawField raw).toNat)

theorem test_angles_low_bits :
    angles 0x00000000 = (0, 0, 0) ∧ angles 0x00000001 = (3, 0, 0) ∧ angles 0x00000800 = (0, 3, 0) ∧
    angles 0x00200000 = (0, 0, 31) ∧ angles 0x00000400 = (3142, 0, 0) ∧ angles 0x00100000 = (0, 1571, 0) ∧
    angles 0x80000000 = (0, 0, 31539) := by decide +kernel

theorem test_angles_fields :
    angles 0x000007FF = (6280, 0, 0) ∧ angles 0x001FF800 = (0, 3139, 0) ∧ angles 0xFFE00000 = (0, 0, 63047) ∧
    angles 0xFFFFFFFF = (6280, 3139, 63047) ∧ angles 0x06680200 = (1571, 785, 1571) ∧ angles 0xAD600000 = (0, 0, 42720) ∧
    yaw 204 = 6283 := by decide +kernel

/-- S7, R171: metres and volts. -/
theorem test_views : metres 1500 = 3 / 2 ∧ metres (-2000) = -2 ∧ metres 300 = 3 / 10 ∧ volts 3700 = 37 / 10 := by
  norm_num [metres, volts]

/-! ### The synchronizer, one step per branch (V20 to V27) -/

theorem test_seek_drop : (next? (step (offering [.byte 0x00 []]))).map (fun t => (t.idx, t.buf)) = some (0, []) := by
  decide +kernel

theorem test_seek_marker :
    (next? (step (offering [.byte 0xFE []]))).map (fun t => (t.idx, t.buf)) = some (1, [(0, 0xFE)]) := by decide +kernel

/-- V22, V22a, V22b, V22c: every size is taken, a marker value too. -/
theorem test_size :
    outcome (candidate [0xFE] 0 0x08) = some (2, 12, []) ∧ outcome (candidate [0xFE] 0 0x00) = some (2, 4, []) ∧
    outcome (candidate [0xFE] 0 0xFF) = some (2, 259, []) ∧ outcome (candidate [0xFE] 0 0xFE) = some (2, 258, []) := by
  decide +kernel

/-- V23, V23a, V23b. -/
theorem test_fill :
    outcome (candidate (v36.take 2) 12 0x05) = some (3, 12, []) ∧
    outcome (candidate (v36.take 11) 12 0xFF) = some (12, 12, []) ∧
    outcome (candidate (v36.take 5) 12 0xFE) = some (6, 12, []) := by decide +kernel

/-- V24. -/
theorem test_check_pass : outcome (candidate v36 12 0xFC) = some (0, 12, [.frame v36, .record .strength]) := by
  decide +kernel

/-- V25, V25a: a marker value is no exception, the byte is consumed. -/
theorem test_check_fail :
    outcome (candidate v36 12 0xFD) = some (0, 12, [.crcMismatch 0x05 12]) ∧
    outcome (candidate v36 12 0xFE) = some (0, 12, [.crcMismatch 0x05 12]) := by decide +kernel

/-- V29. -/
theorem test_sync_restart :
    outcome { candidate (v36.take 7) 12 0 with inputs := [.syncRestart] } = some (0, 12, []) := by decide +kernel

/-! ### The instructions -/

/-- V30: the 14 slots. -/
theorem test_telemetry_slots :
    readings (placed v30 []) [.address, .rollMrad, .pitchMrad, .yawMrad, .posX, .posY, .posZ, .velX, .velY, .velZ, .voltageMv,
      .beacons, .status, .posErr, .lvl0] =
    some [some 7, some 1571, some 785, some 1571, some 1500, some (-2000), some 300, some 10, some (-20), some 0, some 3700,
      some 15, some 1, some 5, none] ∧
    freshAfterStep (placed v30 []) = some true := by decide +kernel

/-- V30d: two trailing bytes are ignored. -/
theorem test_telemetry_long :
    outcome (placed v30d []) = some (0, 33, [.frame v30d, .record .telemetry]) ∧
    readings (placed v30d []) [.posErr, .voltageMv] = some [some 5, some 3700] := by decide +kernel

/-- V32. -/
theorem test_sysStatus_slots :
    readings (placed v32 []) [.sysIdentifier, .sysConfigStatus, .sysLogStatus, .sysLoggerCapacity, .sysLogSize, .address] =
    some [some 0x1234, some 1, some 2, some 4096, some 100000, none] ∧ freshAfterStep (placed v32 []) = some false := by
  decide +kernel

/-- V33, S8: the wrong length. -/
theorem test_sysStatus_wrong_length :
    outcome (placed v33 []) = some (0, 15, [.frame v33, .lengthMismatch 0x08 15]) ∧
    readings (placed v33 []) [.sysIdentifier, .sysLogSize] = some [none, none] := by decide +kernel

/-- V34. -/
theorem test_info_slots :
    readings (placed v34 []) [.hwId, .fwType, .fwVersion, .protoMinor, .protoMajor, .commitHash, .commitCount] =
    some [some 3, some 1, some 42, some 4, some 1, some 0xDEADBEEF, some 513] := by decide +kernel

/-- V34a. -/
theorem test_info_short : outcome (placed v34a []) = some (0, 14, [.frame v34a, .shortFrame 0x18 14]) := by decide +kernel

/-- V35, V35a. -/
theorem test_rawAccel_slots :
    readings (placed v35 []) [.accX, .accY, .accZ] = some [some 100, some (-200), some 16384] ∧
    readings (placed v35a []) [.accX, .accY, .accZ] = some [some (-32768), some 32767, some (-1)] := by decide +kernel

/-- V36, V39: a marker value in the payload is data. -/
theorem test_strength_slots :
    readings (placed v36 []) [.lvl0, .lvl1, .lvl2, .lvl3] = some [some (-40), some (-55), some (-61), some (-70)] ∧
    readings (placed v39 []) [.lvl0, .lvl1, .lvl2, .lvl3] = some [some (-2), some (-2), some 254, some (-257)] := by
  decide +kernel

/-- V38. -/
theorem test_unrecognized : outcome (placed v38 []) = some (0, 4, [.frame v38, .unrecognizedTag 0x99 4]) := by decide +kernel

/-- The word of a table row, placed, is run by the very next step. -/
theorem test_fetch_word :
    (next? (step (State.reset.withFetchWord 32 0x330508FE))).map (fun t => (t.events.length, t.store.read .lvl3)) =
    some (2, some 0) := by decide +kernel

/-! ### The consumer and the environment (V60 to V69) -/

theorem test_reset_reads_none :
    (next? (step (offering [.consumer (.read .posX)]))).map (fun t => t.replies) = some [.value .posX none] ∧
    (next? (step (offering [.consumer .takeIfFresh]))).map (fun t => t.replies) = some [.took false] := by decide +kernel

/-- V61: the take after a Telemetry record answers true and clears. -/
theorem test_take_if_fresh :
    (next? (step { offering [.consumer .takeIfFresh] with fresh := true })).map (fun t => (t.replies, t.fresh)) =
    some ([.took true], false) := by decide +kernel

/-- V67: STOP, and a byte that is then offered. -/
theorem test_stopped_byte : outcome { candidate v36 12 0xFC with stopped := true } = some (12, 12, []) := by decide +kernel

/-- The state after V30 in which V30a is about to be committed under an interleaving. -/
def v69 (during : List SchedItem) : Option (List Reply) :=
  match next? (exec i30 bare) with
  | some s => (next? (exec i30a { s with sched := during })).map fun t => t.replies
  | none   => none

/-- V69: the four pairs; the writes of `pos_x` and `pos_y` are numbers 4 and 5 of the commit. -/
theorem test_torn_reads :
    v69 [.consumer (.read .posX), .consumer (.read .posY)] = some [.value .posX (some 1500), .value .posY (some (-2000))] ∧
    v69 [.consumer (.read .posX), .write 5, .consumer (.read .posY)] =
      some [.value .posX (some 1500), .value .posY (some 2147483647)] ∧
    v69 [.write 5, .write 4, .consumer (.read .posX), .consumer (.read .posY)] =
      some [.value .posX (some (-2147483648)), .value .posY (some 2147483647)] ∧
    v69 [.write 4, .consumer (.read .posX), .consumer (.read .posY)] =
      some [.value .posX (some (-2147483648)), .value .posY (some (-2000))] := by decide +kernel

/-- R64: a take inside the commit comes before `fresh <- 1`. -/
theorem test_take_inside_commit :
    (next? (exec i30 { bare with sched := [.write 0, .consumer .takeIfFresh] })).map (fun t => (t.replies, t.fresh)) =
    some ([.took false], true) := by decide +kernel

/-! ### Witnesses: states that meet the hypotheses of the statements -/

theorem next_of {o : Host.Outcome State Fault Refusal} {t : State} (h : next? o = some t) : o = .next t := by
  cases o with
  | next s => exact congrArg _ (Option.some.inj h)
  | fault r => cases h
  | refused r => cases h

/-- A next state with a property that evaluates to true. -/
theorem exists_next {o : Host.Outcome State Fault Refusal} {p : State → Bool} (h : (next? o).any p = true) :
    ∃ t, o = .next t ∧ p t = true := by
  cases hn : next? o with
  | none => rw [hn] at h; cases h
  | some t => rw [hn] at h; exact ⟨t, next_of hn, h⟩

theorem bare_ready : ReadyInSeek bare := ⟨rfl, rfl, rfl⟩

theorem placed_aboutToEmit (F : List Byte) (during : List SchedItem) (h2 : 2 ≤ F.length) (h : F.length < 512) :
    AboutToEmit (placed F during) F during [] := by
  have hn : (BitVec.ofNat 9 F.length).toNat = F.length := by simp; omega
  refine ⟨rfl, ?_, rfl, ?_, rfl⟩
  · show 2 ≤ (BitVec.ofNat 9 F.length).toNat
    omega
  · show Memory.slice (Memory.writeAll [] 0 F) 0 (BitVec.ofNat 9 F.length).toNat = some F
    rw [hn]
    exact Memory.slice_writeAll [] F

theorem candidate_inv (F : List Byte) (e : Cursor) (b : Byte) (hl : F.length ≤ 259)
    (hc : (candidate F e 0).CursorOk) :
    (candidate F e b).Inv := by
  refine ⟨hc, Memory.wf_writeAll F 0 (by simp [bufCapacity]; omega) rfl, ?_, Layout.default_wf⟩
  intro a ha
  have hn : (BitVec.ofNat 9 F.length).toNat = F.length := by simp; omega
  have ha : a < F.length := by rw [← hn]; exact ha
  have := Memory.read_writeAll F [] 0 a ha
  rw [Nat.zero_add, List.getElem?_eq_getElem ha] at this
  exact ⟨_, this⟩

/-- SEEK, SIZE, FILL (first, last) and CHECK states that meet the invariant. -/
theorem seek_inv (b : Byte) : (candidate [] 0 b).Inv := candidate_inv _ _ _ (by decide) (.inl rfl)
theorem size_inv (b : Byte) : (candidate [0xFE] 0 b).Inv := candidate_inv _ _ _ (by decide) (.inr (.inl ⟨rfl, by decide +kernel⟩))
theorem fill_inv (b : Byte) : (candidate (v36.take 2) 12 b).Inv :=
  candidate_inv _ _ _ (by decide)
    (.inr (.inr ⟨by decide +kernel, by decide +kernel, by decide +kernel, 8, by decide +kernel, by decide⟩))
theorem last_fill_inv (b : Byte) : (candidate (v36.take 11) 12 b).Inv :=
  candidate_inv _ _ _ (by decide)
    (.inr (.inr ⟨by decide +kernel, by decide +kernel, by decide +kernel, 8, by decide +kernel, by decide⟩))
theorem check_inv (b : Byte) : (candidate v36 12 b).Inv :=
  candidate_inv _ _ _ (by decide)
    (.inr (.inr ⟨by decide +kernel, by decide +kernel, by decide +kernel, 8, by decide +kernel, by decide⟩))

theorem v36_stored : StoredFrame v36 := ⟨by decide, 8, by decide, by decide⟩
theorem v35_stored : StoredFrame v35 := ⟨by decide, 6, by decide, by decide⟩
theorem v38_stored : StoredFrame v38 := ⟨by decide, 0, by decide, by decide⟩

theorem witness_ResetClearsCursorFlagsAndValidBits : (offering [.reset]).inputs = [.reset] := rfl

theorem witness_SyncRestartWritesOnlyTheCursor : (offering [.syncRestart]).inputs = [.syncRestart] := rfl

theorem witness_StopWritesOnlyStopped :
    (offering [.stop, .byte 0xFE []]).inputs = .stop :: [.byte 0xFE []] ∧ ([.byte 0xFE []] : List Input) = .byte 0xFE [] :: [] :=
  ⟨rfl, rfl⟩

theorem witness_StoppedBlockIgnoresAByte :
    { offering [.byte 0xFE []] with stopped := true }.stopped = true ∧
    { offering [.byte 0xFE []] with stopped := true }.inputs = .byte 0xFE [] :: [] := ⟨rfl, rfl⟩

theorem witness_StoppedBlockStaysFrozenUntilReset :
    { offering [.byte 0xFE [], .syncRestart] with stopped := true }.stopped = true ∧
    ∀ i ∈ { offering [.byte 0xFE [], .syncRestart] with stopped := true }.inputs, i ≠ .reset :=
  ⟨rfl, by simp [offering]⟩

theorem witness_NothingOfferedNothingHappens : bare.inputs = [] := rfl

theorem witness_EachStepTakesTheFirstInput : ∃ t, step (offering [.byte 0xFE [], .reset]) = .next t := ⟨_, rfl⟩

theorem witness_ParametersAreNeverWritten : ∃ t, step (placed v30 []) = .next t :=
  (exists_next (p := fun _ => true) (by decide +kernel)).imp fun _ h => h.1

theorem witness_TakeIfFreshTestsAndClears :
    (offering [.consumer .takeIfFresh, .consumer .takeIfFresh]).inputs = .consumer .takeIfFresh :: [.consumer .takeIfFresh] ∧
    ([.consumer .takeIfFresh] : List Input) = .consumer .takeIfFresh :: [] := ⟨rfl, rfl⟩

theorem witness_ReadAnswersTheSlotAndChangesNothing :
    (offering [.consumer (.read .posX)]).inputs = .consumer (.read .posX) :: [] := rfl

/-- Both sides: an empty store, and the store after V36. -/
theorem witness_AccessorGroupIsNoneWhenASlotIsInvalid :
    Accessor.signalLevels.sample Store.empty = none ∧
    ((next? (step (placed v36 []))).map fun t => Accessor.signalLevels.sample t.store) = some (some [-40, -55, -61, -70]) := by
  decide +kernel

/-- Both clauses. -/
theorem witness_SeekTakesTheMarkerAndDropsTheRest :
    (offering [.byte 0xFE []]).stopped = false ∧ (offering [.byte 0xFE []]).idx = 0 ∧ (0xFE : Byte) = 0xFE#8 ∧
    (0xFD : Byte) ≠ 0xFE#8 := by
  refine ⟨rfl, rfl, rfl, by decide⟩

/-- The smallest and the largest size. -/
theorem witness_SizeSetsTheExpectedSize :
    (candidate [0xFE] 0 0x00).stopped = false ∧ (candidate [0xFE] 0 0x00).idx = 1 ∧
    (candidate [0xFE] 0 0x00).inputs = .byte 0x00 [] :: [] ∧ (candidate [0xFE] 0 0xFF).inputs = .byte 0xFF [] :: [] :=
  ⟨rfl, rfl, rfl, rfl⟩

/-- The first FILL of the smallest frame and the last of the largest. -/
theorem witness_FillStoresTheByteAndAdvances :
    (∃ s : State, s.stopped = false ∧ s.idx.toNat = 2 ∧ s.expectedSize.toNat = 4 ∧ s.inputs = .byte 0x00 [] :: []) ∧
    ∃ s : State, s.stopped = false ∧ s.idx.toNat = 258 ∧ s.expectedSize.toNat = 259 ∧ s.inputs = .byte 0x00 [] :: [] :=
  ⟨⟨{ candidate [] 4 0x00 with idx := 2 }, rfl, rfl, rfl, rfl⟩, ⟨{ candidate [] 259 0x00 with idx := 258 }, rfl, rfl, rfl, rfl⟩⟩

theorem witness_CheckPassRunsTheDecodedFrame :
    AboutToEmit (placed v36 []) v36 [] [] ∧
    decodeFrame (placed v36 []).params.layout v36 = .ok (.strength 5 0xFFD8 0xFFC9 0xFFC3 0xFFBA) :=
  ⟨placed_aboutToEmit _ _ (by decide) (by decide), by decide +kernel⟩

/-- V25, and the smallest frame with a wrong CRC byte. -/
theorem witness_CheckFailDropsTheFrame :
    ((candidate v36 12 0xFD).idx = (candidate v36 12 0xFD).expectedSize ∧
      (candidate v36 12 0xFD).buf.slice 0 12 = some v36 ∧ (0xFD : Byte) ≠ crc8 t07 (v36.drop 1)) ∧
    ((candidate v38 4 0x00).idx = (candidate v38 4 0x00).expectedSize ∧
      (candidate v38 4 0x00).buf.slice 0 4 = some v38 ∧ (0x00 : Byte) ≠ crc8 t07 (v38.drop 1)) := by decide +kernel

/-- SEEK on the marker and on another byte, SIZE, FILL, CHECK. -/
theorem witness_CursorAdvancesByOneOrReturnsToZero :
    ((candidate [] 0 0xFE).Inv ∧ ∃ t, step (candidate [] 0 0xFE) = .next t) ∧
    ((candidate [] 0 0x00).Inv ∧ ∃ t, step (candidate [] 0 0x00) = .next t) ∧
    ((candidate [0xFE] 0 0x08).Inv ∧ ∃ t, step (candidate [0xFE] 0 0x08) = .next t) ∧
    ((candidate (v36.take 2) 12 0x05).Inv ∧ ∃ t, step (candidate (v36.take 2) 12 0x05) = .next t) ∧
    ((candidate v36 12 0xFC).Inv ∧ ∃ t, step (candidate v36 12 0xFC) = .next t) := by
  have go : ∀ s : State, (next? (step s)).any (fun _ => true) = true → ∃ t, step s = .next t := fun s h =>
    (exists_next h).imp fun _ h => h.1
  exact ⟨⟨seek_inv _, go _ (by decide +kernel)⟩, ⟨seek_inv _, go _ (by decide +kernel)⟩, ⟨size_inv _, go _ (by decide +kernel)⟩,
    ⟨fill_inv _, go _ (by decide +kernel)⟩, ⟨check_inv _, go _ (by decide +kernel)⟩⟩

theorem witness_PaddingByteIsNeverWritten :
    (candidate (v36.take 11) 12 0xFF).Inv ∧ ∃ t, step (candidate (v36.take 11) 12 0xFF) = .next t :=
  ⟨last_fill_inv _, (exists_next (p := fun _ => true) (by decide +kernel)).imp fun _ h => h.1⟩

/-- The batch reaches the end of the frame. -/
theorem witness_BatchedFillIsRepeatedFill :
    (candidate (v36.take 2) 12 0).stopped = false ∧ (candidate (v36.take 2) 12 0).sched = [] ∧
    2 ≤ (candidate (v36.take 2) 12 0).idx.toNat ∧
    (candidate (v36.take 2) 12 0).idx.toNat + (v36.drop 2).length = (candidate (v36.take 2) 12 0).expectedSize.toNat := by
  decide +kernel

theorem witness_QueuedBytesAreTheFedChunk :
    (offering [.byte 0xFE [], .byte 0x08 [], .reset]).sched = [] ∧
    (offering [.byte 0xFE [], .byte 0x08 [], .reset]).inputs =
      ([0xFE, 0x08] : List Byte).map (fun b => Input.byte b []) ++ [.reset] ∧
    ∃ t, feed [0xFE, 0x08] { offering [.byte 0xFE [], .byte 0x08 [], .reset] with inputs := [.reset] } = .next t :=
  ⟨rfl, rfl, (exists_next (p := fun _ => true) (by decide +kernel)).imp fun _ h => h.1⟩

/-- Garbage and no garbage; a frame with a payload and the smallest frame. -/
theorem witness_FrameAfterGarbageIsEmittedOnce :
    ReadyInSeek bare ∧ bare.params.layout.wf = true ∧ startMarker ∉ ([0x00, 0x12, 0xFF] : List Byte) ∧
    startMarker ∉ ([] : List Byte) ∧ StoredFrame v36 ∧ StoredFrame v38 :=
  ⟨bare_ready, Layout.default_wf, by decide, by decide, v36_stored, v38_stored⟩

/-- P2's frames; the first and the last byte that may flip, the lowest and the highest bit. -/
theorem witness_FlippedBitIsRejectedAndTheNextFrameKept :
    ReadyInSeek bare ∧ bare.params.layout.wf = true ∧ Function.Injective (tableAt bare.params.crc8Table) ∧ StoredFrame v35 ∧
    StoredFrame v36 ∧ 2 ≤ 2 ∧ 2 < v35.length ∧ 9 < v35.length ∧ 0 < 8 ∧ 7 < 8 :=
  ⟨bare_ready, Layout.default_wf, t07_injective, v35_stored, v36_stored, by decide, by decide, by decide, by decide, by decide⟩

theorem witness_NoFrameWithoutItsCrc :
    (candidate v36 12 0xFC).Inv ∧ ∃ t, step (candidate v36 12 0xFC) = .next t ∧ .frame v36 ∈ t.events := by
  obtain ⟨t, h, hp⟩ := exists_next (o := step (candidate v36 12 0xFC)) (p := fun t => decide (.frame v36 ∈ t.events))
    (by decide +kernel)
  exact ⟨check_inv _, t, h, of_decide_eq_true hp⟩

/-- Each of the three outcomes. -/
theorem witness_EventsOfAStepComeInThisOrder :
    (∃ t, step (candidate [] 0 0xFE) = .next t ∧ decide (t.events = []) = true) ∧
    (∃ t, step (candidate v36 12 0xFD) = .next t ∧ decide (t.events = [.crcMismatch 5 12]) = true) ∧
    ∃ t, step (candidate v36 12 0xFC) = .next t ∧ decide (t.events = [.frame v36, .record .strength]) = true :=
  ⟨exists_next (by decide +kernel), exists_next (by decide +kernel), exists_next (by decide +kernel)⟩

/-- A slot written by its own record, and one cleared by RESET. -/
theorem witness_OnlyResetOrItsOwnRecordWritesASlot :
    (∃ t, step (placed v36 []) = .next t ∧ decide ((t.store.get .lvl0).1 ≠ ((placed v36 []).store.get .lvl0).1) = true) ∧
    ∃ t, step { offering [.reset] with store := Store.empty.write .lvl0 1 } = .next t ∧
      decide ((t.store.get .lvl0).1 ≠ ((Store.empty.write .lvl0 1).get .lvl0).1) = true :=
  ⟨exists_next (by decide +kernel), exists_next (by decide +kernel)⟩

/-- `fresh` rises with V30 and stays down with V36. -/
theorem witness_FreshRisesExactlyWithATelemetryRecord :
    ((placed v30 []).fresh = false ∧ ∃ t, step (placed v30 []) = .next t ∧
      decide (t.fresh = true ∧ .record .telemetry ∈ t.events) = true) ∧
    ((placed v36 []).fresh = false ∧ ∃ t, step (placed v36 []) = .next t ∧ decide (t.fresh = false) = true) :=
  ⟨⟨rfl, exists_next (by decide +kernel)⟩, ⟨rfl, exists_next (by decide +kernel)⟩⟩

theorem witness_ValidSlotStaysValidUntilReset :
    (((placed v36 []).store.write .posX 1).get .posX).1 = true ∧
    (∀ rest, { placed v36 [] with store := (placed v36 []).store.write .posX 1 }.inputs ≠ .reset :: rest) ∧
    ∃ t, step { placed v36 [] with store := (placed v36 []).store.write .posX 1 } = .next t :=
  ⟨rfl, by simp [placed], (exists_next (p := fun _ => true) (by decide +kernel)).imp fun _ h => h.1⟩

/-- The shortest Telemetry frame that decodes, and a longer one. -/
theorem witness_TelemetryFrameReachesItsSlots :
    AboutToEmit (placed v30 []) v30 [] [] ∧ AboutToEmit (placed v30d []) v30d [] [] ∧
    (placed v30 []).params.layout = Layout.default ∧ byteAt v30 3 = 0x02#8 ∧ v30.length = 31 ∧ byteAt v30d 3 = 0x02#8 ∧
    v30d.length = 33 :=
  ⟨placed_aboutToEmit _ _ (by decide) (by decide), placed_aboutToEmit _ _ (by decide) (by decide), rfl, by decide, by decide,
    by decide, by decide⟩

theorem witness_SysStatusFrameReachesItsSlots :
    AboutToEmit (placed v32 []) v32 [] [] ∧ (placed v32 []).params.layout.wf = true ∧ byteAt v32 3 = 0x08#8 ∧ v32.length = 16 :=
  ⟨placed_aboutToEmit _ _ (by decide) (by decide), Layout.default_wf, by decide, by decide⟩

theorem witness_InfoFrameReachesItsSlots :
    AboutToEmit (placed v34 []) v34 [] [] ∧ (placed v34 []).params.layout.wf = true ∧ byteAt v34 3 = 0x18#8 ∧
    (placed v34 []).params.layout.minLen .info = v34.length :=
  ⟨placed_aboutToEmit _ _ (by decide) (by decide), Layout.default_wf, by decide, by decide +kernel⟩

theorem witness_RawAccelFrameReachesItsSlots :
    AboutToEmit (placed v35 []) v35 [] [] ∧ (placed v35 []).params.layout = Layout.default ∧ byteAt v35 3 = 0x1D#8 ∧
    v35.length = 10 :=
  ⟨placed_aboutToEmit _ _ (by decide) (by decide), rfl, by decide, by decide⟩

theorem witness_StrengthFrameReachesItsSlots :
    AboutToEmit (placed v36 []) v36 [] [] ∧ (placed v36 []).params.layout = Layout.default ∧ byteAt v36 3 = 0x33#8 ∧
    v36.length = 12 :=
  ⟨placed_aboutToEmit _ _ (by decide) (by decide), rfl, by decide, by decide⟩

/-- Each clause, at the length next to the one that would decode. -/
theorem witness_IgnoredFrameWritesNoSlot :
    (AboutToEmit (placed v38 []) v38 [] [] ∧ v38.length = 4 ∧ byteAt v38 3 ∉ [0x02#8, 0x08#8, 0x18#8, 0x1D#8, 0x33#8]) ∧
    (AboutToEmit (placed v33 []) v33 [] [] ∧ byteAt v33 3 = 0x08#8 ∧ v33.length = 15) ∧
    (AboutToEmit (placed v37 []) v37 [] [] ∧ byteAt v37 3 = 0x33#8 ∧ v37.length = 13) ∧
    (AboutToEmit (placed v30c []) v30c [] [] ∧ byteAt v30c 3 = 0x02#8 ∧ v30c.length = 30) ∧
    (AboutToEmit (placed v34a []) v34a [] [] ∧ byteAt v34a 3 = 0x18#8 ∧ v34a.length = 14) ∧
    (AboutToEmit (placed v35b []) v35b [] [] ∧ byteAt v35b 3 = 0x1D#8 ∧ v35b.length = 9) ∧
    (placed v38 []).params.layout = Layout.default :=
  ⟨⟨placed_aboutToEmit _ _ (by decide) (by decide), by decide, by decide⟩,
   ⟨placed_aboutToEmit _ _ (by decide) (by decide), by decide, by decide⟩,
   ⟨placed_aboutToEmit _ _ (by decide) (by decide), by decide, by decide⟩,
   ⟨placed_aboutToEmit _ _ (by decide) (by decide), by decide, by decide⟩,
   ⟨placed_aboutToEmit _ _ (by decide) (by decide), by decide, by decide⟩,
   ⟨placed_aboutToEmit _ _ (by decide) (by decide), by decide, by decide⟩, rfl⟩

/-- One instruction of each family, the longest Telemetry payload among them, and a layout with gaps. -/
theorem witness_DecodeOfEncodeIsTheInstruction :
    Layout.default.wf = true ∧ narrowSys.wf = true ∧ i30.wf Layout.default = true ∧
    Instr.wf narrowSys (.sysStatus 7 0xFFFF 1 2 4096 0xFFFF) = true ∧
    Instr.wf Layout.default (.info 7 255 1 42 4 1 0xDEADBEEF 513 []) = true ∧
    Instr.wf Layout.default (.rawAccel 5 100 0xFF38 16384 [1, 2]) = true ∧
    Instr.wf Layout.default (.strength 5 0xFFD8 0xFFC9 0xFFC3 0xFFBA) = true ∧
    Instr.wf Layout.default (.unrecognized .lengthMismatch 5 0x33 [1]) = true := by decide +kernel

theorem witness_EncodeOfDecodeIsTheFrame : decode Layout.default v30d =
    .ok (.telemetry 7 0x06680200 1500 0xFFFFF830 300 10 0xFFEC 0 3700 0x0F 1 5 [0xAA, 0xBB]) := by decide +kernel

theorem witness_WireBytesOfAnInstructionRunIt :
    ReadyInSeek bare ∧ bare.params.layout.wf = true ∧ i30.wf bare.params.layout = true :=
  ⟨bare_ready, Layout.default_wf, by decide +kernel⟩

theorem witness_NextStepRunsThePlacedWord : decodeTableWord 32 0x330708FE = some (.strength 7 0 0 0 0) := by decide +kernel

/-- V8: a leading zero is invisible under T07. -/
theorem witness_CrcIsComputedByteByByte : crc8 t07 [0] = crc8 t07 [] := by decide +kernel

/-- Reads, a take, and a completion. -/
theorem witness_ConsumerInsideACommitSeesOldOrNew :
    (consumerOps [.write 4, .consumer (.read .posX), .consumer .takeIfFresh])[0]? = some (.read .posX) ∧
    (consumerOps [.write 4, .consumer (.read .posX), .consumer .takeIfFresh])[1]? = some .takeIfFresh ∧
    ∃ t, exec i30 { bare with sched := [.write 4, .consumer (.read .posX), .consumer .takeIfFresh] } = .next t ∧
      decide (t.replies = [.value .posX (some 1500), .took false]) = true :=
  ⟨rfl, rfl, exists_next (by decide +kernel)⟩

/-- `pos_x` is written, then read twice; the first read is not the old value. -/
theorem witness_NewSlotValueIsNotUnseen :
    (consumerOps [.write 4, .consumer (.read .posX), .consumer (.read .posX)])[0]? = some (.read .posX) ∧
    (consumerOps [.write 4, .consumer (.read .posX), .consumer (.read .posX)])[1]? = some (.read .posX) ∧
    bare.store.read .posX = none ∧
    ∃ t, exec i30 { bare with sched := [.write 4, .consumer (.read .posX), .consumer (.read .posX)] } = .next t ∧
      decide (t.replies = bare.replies ++ [.value .posX (some 1500), .value .posX (some 1500)]) = true :=
  ⟨rfl, rfl, rfl, exists_next (by decide +kernel)⟩

/-- The two writes in the other order, a read between them. -/
theorem witness_EveryInterleavingOfACommitIsAdmitted :
    (([.inl ⟨.accY, 2⟩, .inr (.read .accX), .inl ⟨.accX, 1⟩] : List (SlotWrite ⊕ ConsumerOp)).filterMap Sum.getLeft?).Perm
      [⟨.accX, 1⟩, ⟨.accY, 2⟩] := List.Perm.swap _ _ _

theorem witness_EveryStepKeepsTheInvariant :
    (candidate v36 12 0xFC).Inv ∧ ∃ t, step (candidate v36 12 0xFC) = .next t :=
  ⟨check_inv _, (exists_next (p := fun _ => true) (by decide +kernel)).imp fun _ h => h.1⟩

theorem witness_EveryStepSucceedsUnderTheInvariant : (candidate (v36.take 2) 12 0x05).Inv := fill_inv _

/-- A store with a valid angle at the end of its range. -/
theorem witness_EveryStepKeepsTheSlotRanges :
    { placed v30 [] with store := Store.empty.write .rollMrad 6280 }.SlotsInRange ∧
    { placed v30 [] with store := Store.empty.write .rollMrad 6280 }.params.layout.wf = true ∧
    ∃ t, step { placed v30 [] with store := Store.empty.write .rollMrad 6280 } = .next t := by
  have hn : ∀ n, n ≠ .rollMrad → (Store.empty.write .rollMrad 6280).read n = none := fun n h => by
    rw [Store.read_write_of_ne _ _ h]; exact Store.read_of_invalid (Store.get_empty n)
  have hr : (Store.empty.write .rollMrad 6280).read .rollMrad = some 6280 := by decide +kernel
  refine ⟨⟨?_, ?_, ?_, ?_⟩, Layout.default_wf, (exists_next (p := fun _ => true) (by decide +kernel)).imp fun _ h => h.1⟩
  · intro x hx
    have : some (6280 : Int) = some x := hr.symm.trans hx
    cases this
    decide
  · intro x hx; cases (hn .pitchMrad (by decide)).symm.trans hx
  · intro x hx; cases (hn .yawMrad (by decide)).symm.trans hx
  · intro n f x hf hx
    by_cases h : n = .rollMrad
    · subst h; cases hf
    · cases (hn n h).symm.trans hx

/-- Two different states that differ only in stale bytes. -/
theorem witness_UnspecifiedValuesAreNeverSeen :
    (candidate [] 0 0xFE).Inv ∧ Alike (candidate [] 0 0xFE) { candidate [] 0 0xFE with buf := [(5, 1)], expectedSize := 9 } ∧
    candidate [] 0 0xFE ≠ { candidate [] 0 0xFE with buf := [(5, 1)], expectedSize := 9 } ∧
    ∃ t, step (candidate [] 0 0xFE) = .next t := by
  refine ⟨seek_inv _, ⟨rfl, fun h => ?_, fun a h => ?_, fun _ => rfl, fun _ _ => rfl, rfl, rfl, rfl, rfl, rfl, rfl, rfl⟩,
    fun h => ?_, (exists_next (p := fun _ => true) (by decide +kernel)).imp fun _ h => h.1⟩
  · exact absurd (show 2 ≤ 0 from h) (by decide)
  · exact absurd (show a < 0 from h) (by omega)
  · have := congrArg State.expectedSize h
    exact absurd (show (0 : Cursor) = 9 from this) (by decide)

/-- Both ends of the field ranges. -/
theorem witness_AnglesAreTheNearestMilliradian : 0 < 2048 ∧ 2047 < 2048 ∧ 0 < 1024 ∧ 1023 < 1024 := by decide

theorem witness_AnglesIncreaseStrictly : 0 < 2047 ∧ 2047 < 2048 ∧ 1023 < 1024 := by decide

end Sys2Proof.Tests
end

/-! ### The queue of inputs (spec 00_scope.md R10, 20_memory.md R59) -/

namespace Sys2Proof.Machine

/-- A byte's step never touches the queue: what is offered behind the byte is neither consumed nor pushed back (R59). -/
theorem ByteStep.inputs_eq {b : Byte} {s t : State} (h : ByteStep b s t) : t.inputs = s.inputs := by
  cases h with
  | stopped => simp
  | seek => simp
  | size => simp
  | fill => simp
  | reject => simp
  | accept _ _ _ F _ _ _ _ i _ => rw [(execState_control i (s.handed F)).inputs, State.handed_inputs]

/-- Whatever the first input is, its step leaves the rest of the queue; with nothing offered the queue stays empty. -/
theorem StepCase.inputs_eq_tail {s t : State} (h : StepCase s t) : t.inputs = s.inputs.tail := by
  cases h with
  | idle hi => simp [hi]
  | byte b during rest hi t hb => rw [hb.inputs_eq, State.offered_inputs, hi, List.tail_cons]
  | reset rest hi => simp [hi]
  | syncRestart rest hi => simp [hi]
  | stop rest hi => simp [hi]
  | consumer op rest hi => simp [hi]

/-- Settles O8, from the case analysis of a step: `begin` and `offered` drop the first input, and nothing that follows in the
step writes the queue. -/
theorem eachStepTakesTheFirstInput : Obligations.EachStepTakesTheFirstInput :=
  fun _ _ h => (step_iff.1 h).inputs_eq_tail

end Sys2Proof.Machine

/-! ### The parameters, and the commit's share in a step (spec 10_state.md R41, R44; 43_store_host.md R165) -/

namespace Sys2Proof.Machine

theorem ByteStep.params_eq {b : Byte} {s t : State} (h : ByteStep b s t) : t.params = s.params := by
  cases h with
  | stopped => simp
  | seek => simp
  | size => simp
  | fill => simp
  | reject => simp
  | accept _ _ _ F _ _ _ _ i _ => rw [(execState_control i (s.handed F)).params, State.handed_params]

theorem StepCase.params_eq {s t : State} (h : StepCase s t) : t.params = s.params := by
  cases h with
  | idle => simp
  | byte b during rest hi t hb => rw [hb.params_eq, State.offered_params]
  | reset => simp
  | syncRestart => simp
  | stop => simp
  | consumer => simp

/-- Settles O29: every update of a step leaves the parameters alone. -/
theorem parametersAreNeverWritten : Obligations.ParametersAreNeverWritten :=
  fun _ _ h => (step_iff.1 h).params_eq

/-- A byte's step leaves the store alone, or it is the CHECK that commits the decoded frame. -/
theorem ByteStep.store_cases {b : Byte} {s t : State} (h : ByteStep b s t) :
    t.store = s.store ∨
    ∃ F i, decodeFrame s.params.layout F = .ok i ∧ t.events = s.events ++ [.frame F, instrEvent i] ∧
      t.store = s.store.writeAll (instrWrites i) := by
  cases h with
  | stopped => exact .inl (by simp)
  | seek => exact .inl (by simp)
  | size => exact .inl (by simp)
  | fill => exact .inl (by simp)
  | reject => exact .inl (by simp)
  | accept _ _ _ F _ _ _ _ i hi => exact .inr ⟨F, i, hi, by simp [execState_events], by simp [execState_store]⟩

/-- What a step can do to the store: nothing; clear every valid bit (R220); or commit one decoded frame (R165). -/
theorem StepCase.store_cases {s t : State} (h : StepCase s t) :
    t.store = s.store ∨
    (∃ rest, s.inputs = .reset :: rest ∧ t.store = s.store.invalidate) ∨
    ∃ F i, decodeFrame s.params.layout F = .ok i ∧ t.events = [.frame F, instrEvent i] ∧
      t.store = s.store.writeAll (instrWrites i) := by
  cases h with
  | idle => exact .inl (by simp)
  | byte b during rest hi t hb => exact hb.store_cases.imp_right .inr
  | reset rest hi => exact .inr (.inl ⟨rest, hi, by simp⟩)
  | syncRestart => exact .inl (by simp)
  | stop => exact .inl (by simp)
  | consumer => exact .inl (by simp)

end Sys2Proof.Machine

/-! ### The invariant of the cursor and the buffer (spec 10_state.md R21, R22, R25) -/

namespace Sys2Proof.Machine

/-- SEEK needs no candidate: a canonical buffer and a well-formed layout are enough. -/
theorem State.Inv.of_idx_zero {s : State} (h0 : s.idx = 0) (hc : Memory.wf s.buf = true)
    (hl : s.params.layout.wf = true) : s.Inv where
  cursor := .inl h0
  canonical := hc
  written a ha := absurd ha (by rw [(idx_eq_zero_iff s.idx).1 h0]; exact Nat.not_lt_zero a)
  layout := hl

/-- The invariant is about cursor, `expected_size`, buffer and parameters only. -/
theorem State.Inv.congr {s t : State} (h : s.Inv) (hi : t.idx = s.idx) (he : t.expectedSize = s.expectedSize)
    (hb : t.buf = s.buf) (hp : t.params = s.params) : t.Inv where
  cursor := by simpa only [State.CursorOk, hi, he, hb] using h.cursor
  canonical := by simpa only [hb] using h.canonical
  written := by simpa only [hi, hb] using h.written
  layout := by simpa only [hp] using h.layout

theorem State.Inv.commit {s : State} (h : s.Inv) (ws : List SlotWrite) : (s.commit ws).Inv :=
  h.congr (by simp) (by simp) (by simp) (by simp)

/-- The candidate of FILL and CHECK, the third case of R25. -/
theorem State.Inv.candidate {s : State} (h : s.Inv) (h2 : 2 ≤ s.idx.toNat) :
    s.idx.toNat ≤ s.expectedSize.toNat ∧ s.buf.read 0 = some startMarker ∧
    ∃ n : Byte, s.buf.read 1 = some n ∧ s.expectedSize.toNat = n.toNat + 4 := by
  rcases h.cursor with h0 | ⟨h1, _⟩ | ⟨_, hc⟩
  · rw [idx_eq_zero_iff] at h0; omega
  · rw [idx_eq_one_iff] at h1; omega
  · exact hc

/-- N + 4 is at most 259, so a candidate never reaches the padding byte (R22). -/
theorem State.Inv.expectedSize_le {s : State} (h : s.Inv) (h2 : 2 ≤ s.idx.toNat) : s.expectedSize.toNat ≤ 259 := by
  obtain ⟨_, _, n, _, hn⟩ := h.candidate h2
  have := n.isLt
  omega

/-- N + 4 fits the nine bits of `expected_size` (R112). -/
theorem expectedSize_toNat (b : Byte) : (b.setWidth 9 + 4 : Cursor).toNat = b.toNat + 4 := by
  have := b.isLt
  have h4 : (4 : Cursor).toNat = 4 := rfl
  simp only [BitVec.toNat_add, BitVec.toNat_setWidth, h4]
  omega

/-- Storing the byte at the cursor and advancing keeps every byte of the candidate written. -/
theorem written_write_next {m : Memory} {n : Nat} (h : ∀ a, a < n → ∃ b, m.read a = some b) (b : Byte) {a : Nat}
    (ha : a < n + 1) : ∃ c, Memory.read (m.write n b) a = some c := by
  by_cases he : a = n
  · exact ⟨b, by rw [he, Memory.read_write_same]⟩
  · rw [Memory.read_write_of_ne _ _ he]
    exact h a (by omega)

theorem State.Inv.seek {s : State} (h : s.Inv) (h0 : s.idx = 0) (b : Byte) : (s.seek b).Inv := by
  by_cases hb : b = startMarker
  · subst hb
    have hn : s.idx.toNat = 0 := (idx_eq_zero_iff s.idx).1 h0
    rw [State.seek_marker]
    exact {
      cursor := .inr (.inl ⟨rfl, Memory.read_write_same _ _ _⟩)
      canonical := Memory.wf_write 0 startMarker (by decide) h.canonical
      written := fun _ ha => written_write_next (n := 0) (hn ▸ h.written) startMarker ha
      layout := h.layout }
  · rwa [State.seek_of_ne s hb]

theorem State.Inv.size {s : State} (h : s.Inv) (h1 : s.idx = 1) (b : Byte) : (s.size b).Inv := by
  have hn : s.idx.toNat = 1 := (idx_eq_one_iff s.idx).1 h1
  have hm : s.buf.read 0 = some startMarker := by
    rcases h.cursor with h0 | ⟨_, hm⟩ | ⟨h2, _⟩
    · rw [idx_eq_zero_iff] at h0; omega
    · exact hm
    · omega
  have he : (s.size b).expectedSize.toNat = b.toNat + 4 := expectedSize_toNat b
  have h2 : (s.size b).idx.toNat = 2 := rfl
  exact {
    cursor := .inr (.inr ⟨by omega, by omega, (Memory.read_write_of_ne _ _ (by decide)).trans hm, b,
      Memory.read_write_same _ _ _, he⟩)
    canonical := Memory.wf_write 1 b (by decide) h.canonical
    written := fun _ ha => written_write_next (n := 1) (hn ▸ h.written) b ha
    layout := h.layout }

/-- Below `expected_size` the cursor does not wrap. -/
theorem State.Inv.idx_succ_toNat {s : State} (h : s.Inv) (h2 : 2 ≤ s.idx.toNat)
    (hlt : s.idx.toNat < s.expectedSize.toNat) : (s.idx + 1).toNat = s.idx.toNat + 1 := by
  have := h.expectedSize_le h2
  have h1 : (1 : Cursor).toNat = 1 := rfl
  rw [BitVec.toNat_add, h1]
  omega

theorem State.Inv.fill {s : State} (h : s.Inv) (h2 : 2 ≤ s.idx.toNat) (hlt : s.idx.toNat < s.expectedSize.toNat)
    (b : Byte) : (s.fill b).Inv := by
  obtain ⟨_, hm, n, hr, hn⟩ := h.candidate h2
  have hle := h.expectedSize_le h2
  have hi : (s.fill b).idx.toNat = s.idx.toNat + 1 := h.idx_succ_toNat h2 hlt
  have keep : ∀ a, a < 2 → (s.fill b).buf.read a = s.buf.read a := fun a ha =>
    Memory.read_write_of_ne _ _ (by omega)
  exact {
    cursor := .inr (.inr ⟨by omega, by rw [hi]; exact hlt, (keep 0 (by decide)).trans hm, n,
      (keep 1 (by decide)).trans hr, hn⟩)
    canonical := Memory.wf_write _ b (by simp only [bufCapacity]; omega) h.canonical
    written := fun _ ha => written_write_next h.written b (hi ▸ ha)
    layout := h.layout }

/-- Each rule of the synchronizer keeps the invariant; CHECK ends in SEEK whatever the CRC says. -/
theorem ByteStep.inv {b : Byte} {s t : State} (h : ByteStep b s t) (hs : s.Inv) : t.Inv := by
  cases h with
  | stopped => exact hs.commit []
  | seek _ h0 => exact (hs.seek h0 b).commit []
  | size _ h1 => exact (hs.size h1 b).commit []
  | fill _ h2 hlt _ => exact (hs.fill h2 hlt b).commit []
  | reject _ _ _ F _ addr _ _ =>
    exact (State.Inv.of_idx_zero (s := s.reject addr) rfl hs.canonical hs.layout).commit []
  | accept _ _ _ F _ _ _ _ i _ =>
    have hk := execState_control i (s.handed F)
    exact .of_idx_zero hk.idx (by rw [execState_buf]; exact hs.canonical) (by rw [hk.params]; exact hs.layout)

theorem State.Inv.offered {s : State} (h : s.Inv) (during : List SchedItem) (rest : List Input) :
    (s.offered during rest).Inv :=
  h.congr rfl rfl rfl rfl

/-- What the environment and a consumer do keeps the cursor or clears it, and touches neither buffer nor parameters. -/
theorem StepCase.inv {s t : State} (h : StepCase s t) (hs : s.Inv) : t.Inv := by
  cases h with
  | idle => exact hs.congr rfl rfl rfl rfl
  | byte b during rest hi t hb => exact hb.inv (hs.offered during rest)
  | reset => exact .of_idx_zero rfl hs.canonical hs.layout
  | syncRestart => exact .of_idx_zero rfl hs.canonical hs.layout
  | stop => exact hs.congr rfl rfl rfl rfl
  | consumer => exact hs.congr (by simp) (by simp) (by simp) (by simp)

/-- Settles O57, from the case analysis of a step: each rule of the synchronizer keeps the invariant (`ByteStep.inv`), and every
other input keeps the cursor or clears it. -/
theorem everyStepKeepsTheInvariant : Obligations.EveryStepKeepsTheInvariant :=
  fun _ _ hs h => (step_iff.1 h).inv hs

/-- The cursor after the byte of a running block (R21). -/
theorem ByteStep.idx_toNat {b : Byte} {s t : State} (h : ByteStep b s t) (hs : s.Inv) (hr : s.stopped = false) :
    t.idx.toNat =
      if (s.idx = 0 ∧ b ≠ startMarker) ∨ (2 ≤ s.idx.toNat ∧ s.idx = s.expectedSize) then 0 else s.idx.toNat + 1 := by
  cases h with
  | stopped hst => rw [hr] at hst; cases hst
  | seek _ h0 =>
    by_cases hb : b = startMarker
    · subst hb; simp [h0, State.seek_marker]
    · simp [h0, hb, State.seek_of_ne]
  | size _ h1 => simp [h1]
  | fill _ h2 hlt _ =>
    have h0 : s.idx ≠ 0 := fun e => by rw [idx_eq_zero_iff] at e; omega
    have he : s.idx ≠ s.expectedSize := fun e => by rw [e] at hlt; omega
    rw [if_neg (not_or.2 ⟨fun h => h0 h.1, fun h => he h.2⟩), State.commit_idx, State.fill_idx, hs.idx_succ_toNat h2 hlt]
  | reject _ h2 hge F _ addr _ _ =>
    have he : s.idx = s.expectedSize := BitVec.eq_of_toNat_eq (Nat.le_antisymm (hs.candidate h2).1 hge)
    rw [if_pos (.inr ⟨h2, he⟩), State.commit_idx, State.reject_idx]; rfl
  | accept _ h2 hge F _ _ _ _ i _ =>
    have he : s.idx = s.expectedSize := BitVec.eq_of_toNat_eq (Nat.le_antisymm (hs.candidate h2).1 hge)
    rw [if_pos (.inr ⟨h2, he⟩), (execState_control i (s.handed F)).idx, State.handed_idx]; rfl

/-- Settles O17, one case per rule of the synchronizer; the invariant says that FILL does not wrap and that CHECK is taken at
`expected_size`. -/
theorem cursorAdvancesByOneOrReturnsToZero : Obligations.CursorAdvancesByOneOrReturnsToZero := by
  intro s t b during rest hs hr hi h
  rw [step_byte hi] at h
  exact (stepByte_iff.1 h).idx_toNat (hs.offered during rest) hr

/-- SEEK writes index 0, SIZE index 1, FILL an index below `expected_size`; none of them is 259. -/
theorem ByteStep.read_padding {b : Byte} {s t : State} (h : ByteStep b s t) (hs : s.Inv) :
    t.buf.read 259 = s.buf.read 259 := by
  cases h with
  | stopped => simp
  | seek =>
    by_cases hb : b = startMarker
    · subst hb; simp [State.seek_marker, Memory.read_write]
    · simp [State.seek_of_ne s hb]
  | size => simp [Memory.read_write]
  | fill _ h2 hlt _ =>
    have := hs.expectedSize_le h2
    rw [State.commit_buf, State.fill_buf, Memory.read_write_of_ne _ _ (by omega)]
  | reject => simp
  | accept _ _ _ F _ _ _ _ i _ => simp [execState_buf]

theorem StepCase.read_padding {s t : State} (h : StepCase s t) (hs : s.Inv) : t.buf.read 259 = s.buf.read 259 := by
  cases h with
  | idle => simp
  | byte b during rest hi t hb => exact hb.read_padding (hs.offered during rest)
  | reset => simp
  | syncRestart => simp
  | stop => simp
  | consumer => simp

/-- Settles O18: only a byte's step writes the buffer, at an index below 259. -/
theorem paddingByteIsNeverWritten : Obligations.PaddingByteIsNeverWritten :=
  fun _ _ hs h => (step_iff.1 h).read_padding hs

end Sys2Proof.Machine

/-! ### What the decoder hands over fits its field (spec 20_memory.md R52, 30_encoding.md R75) -/

namespace Sys2Proof

theorem frameRead_lt {F : List Byte} {a n v : Nat} (h : frameRead F a n = some v) : v < 256 ^ n := by
  induction n generalizing a v with
  | zero => simp only [frameRead, Option.some.injEq] at h; subst h; simp
  | succ n ih =>
    rw [frameRead] at h
    split at h
    · next b hi _ hhi =>
      simp only [Option.some.injEq] at h
      subst h
      have := ih hhi
      have := b.isLt
      rw [Nat.pow_succ]
      omega
    · cases h

theorem Field.toNat_lt_of_fits {f : Field} {v : Word32} (h : f.fits v = true) : v.toNat < 256 ^ f.width.bytes :=
  of_decide_eq_true h

/-- What an unsigned field reads fits the field. -/
theorem Field.fits_of_get {f : Field} {F : List Byte} {v : Word32} (hs : f.signed = false) (h : f.get F = .ok v) :
    f.fits v = true := by
  unfold Field.get at h
  split at h
  · next x hx =>
    cases h
    have hlt := frameRead_lt hx
    exact decide_eq_true (by rwa [f.extend_lt hs hlt])
  · cases h

/-- A composed reading that answers is made of readings that answer. -/
theorem bind_eq_ok_iff {ε α β : Type} {x : Except ε α} {f : α → Except ε β} {b : β} :
    (x >>= f) = .ok b ↔ ∃ a, x = .ok a ∧ f a = .ok b := by
  cases x with
  | error e => exact ⟨nofun, nofun⟩
  | ok a => exact ⟨fun h => ⟨a, rfl, h⟩, fun ⟨_, h, hf⟩ => by cases h; exact hf⟩

end Sys2Proof

/-! ### The ranges of the slots (spec 10_state.md R20, R32, R34, R35) -/

namespace Sys2Proof.Machine

/-- The first number beyond a slot's range, for the slots that `State.SlotsInRange` bounds. -/
def SlotName.bound (L : Layout) : SlotName → Option Nat
  | .rollMrad  => some 6281
  | .pitchMrad => some 3140
  | .yawMrad   => some 63048
  | n          => (n.layoutField L).map fun f => 256 ^ f.width.bytes

/-- `State.SlotsInRange` as one statement about every slot that has a bound. -/
theorem slotsInRange_iff {s : State} : s.SlotsInRange ↔
    ∀ (n : SlotName) (k : Nat) (x : Int), n.bound s.params.layout = some k → s.store.read n = some x → 0 ≤ x ∧ x < (k : Int) := by
  constructor
  · intro h n k x hk hx
    unfold SlotName.bound at hk
    split at hk
    · cases hk; have := h.roll x hx; omega
    · cases hk; have := h.pitch x hx; omega
    · cases hk; have := h.yaw x hx; omega
    · obtain ⟨f, hf, rfl⟩ := Option.map_eq_some_iff.1 hk
      simpa using h.layout n f x hf hx
  · intro h
    refine ⟨fun x hx => ?_, fun x hx => ?_, fun x hx => ?_, fun n f x hf hx => ?_⟩
    · have := h .rollMrad _ x rfl hx; omega
    · have := h .pitchMrad _ x rfl hx; omega
    · have := h .yawMrad _ x rfl hx; omega
    · have hb : n.bound s.params.layout = some (256 ^ f.width.bytes) := by
        unfold SlotName.bound
        split
        · cases hf
        · cases hf
        · cases hf
        · rw [hf]; rfl
      simpa using h n _ x hb hx

/-- No signed slot has a bound. -/
theorem SlotName.bound_of_signed (L : Layout) {n : SlotName} (h : n.signed = true) : n.bound L = none := by
  cases n <;> simp [SlotName.signed, SlotName.bound, SlotName.layoutField] at h ⊢

/-- Each write of a slot that has a bound is below it. -/
def WritesInRange (L : Layout) (ws : List SlotWrite) : Prop :=
  ∀ w ∈ ws, ∀ k : Nat, w.slot.bound L = some k → w.value.toNat < k

theorem writesInRange_nil (L : Layout) : WritesInRange L [] := fun _ hw => absurd hw (List.not_mem_nil)

theorem writesInRange_cons {L : Layout} {w : SlotWrite} {ws : List SlotWrite} :
    WritesInRange L (w :: ws) ↔ (∀ k, w.slot.bound L = some k → w.value.toNat < k) ∧ WritesInRange L ws :=
  List.forall_mem_cons

theorem milliradians_mono {j k : Nat} (h : j ≤ k) (d : Nat) : milliradians j d ≤ milliradians k d := by
  unfold milliradians
  gcongr

theorem roll_le {k : Nat} (h : k < 2048) : roll k ≤ 6280 := milliradians_mono (k := 2047) (by omega) 1024

theorem pitch_le {k : Nat} (h : k < 1024) : pitch k ≤ 3139 := milliradians_mono (k := 1023) (by omega) 1024

theorem yaw_le {k : Nat} (h : k < 2048) : yaw k ≤ 63047 := milliradians_mono (k := 2047) (by omega) 102

/-- Cutting a number to a word makes it no larger. -/
theorem toNat_ofNat_lt_succ {a k : Nat} (h : a ≤ k) : (BitVec.ofNat 32 a).toNat < k + 1 := by
  rw [BitVec.toNat_ofNat]
  exact Nat.lt_succ_of_le ((Nat.mod_le _ _).trans h)

/-- Whatever the operands of TELEMETRY are, its angles are in range (R32). -/
theorem telemetryWrites_inRange (L : Layout) (addr : Byte) (o x y z : Word32) (vx vy vz mv : BitVec 16) (bc st pe : Byte) :
    WritesInRange L (telemetryWrites addr o x y z vx vy vz mv bc st pe) := by
  have hr := toNat_ofNat_lt_succ (roll_le (rollField o).isLt)
  have hp := toNat_ofNat_lt_succ (pitch_le (pitchField o).isLt)
  have hy := toNat_ofNat_lt_succ (yaw_le (yawField o).isLt)
  simp [telemetryWrites, writesInRange_cons, writesInRange_nil, SlotName.bound, SlotName.layoutField, hr, hp, hy,
    -BitVec.toNat_ofNat]

/-- The five SysStatus slots are as wide as their fields (R34). -/
theorem sysStatusWrites_inRange {L : Layout} {ident cfg log cap size : Word32} (h0 : L.sysIdentifier.fits ident = true)
    (h1 : L.sysConfigStatus.fits cfg = true) (h2 : L.sysLogStatus.fits log = true)
    (h3 : L.sysLoggerCapacity.fits cap = true) (h4 : L.sysLogSize.fits size = true) :
    WritesInRange L (sysStatusWrites ident cfg log cap size) := by
  simp [sysStatusWrites, writesInRange_cons, writesInRange_nil, SlotName.bound, SlotName.layoutField,
    Field.toNat_lt_of_fits, *]

/-- The first five Info slots are as wide as their fields (R35). -/
theorem infoWrites_inRange {L : Layout} {hw fwt fwv pmin pmaj : Word32} (h0 : L.hwId.fits hw = true)
    (h1 : L.fwType.fits fwt = true) (h2 : L.fwVersion.fits fwv = true) (h3 : L.protoMinor.fits pmin = true)
    (h4 : L.protoMajor.fits pmaj = true) (hash : Word32) (cnt : BitVec 16) :
    WritesInRange L (infoWrites hw fwt fwv pmin pmaj hash cnt) := by
  simp [infoWrites, writesInRange_cons, writesInRange_nil, SlotName.bound, SlotName.layoutField,
    Field.toNat_lt_of_fits, *]

/-- RawAccel and Strength slots have the range of their width. -/
theorem rawAccelWrites_inRange (L : Layout) (x y z : BitVec 16) : WritesInRange L (rawAccelWrites x y z) := by
  simp [rawAccelWrites, writesInRange_cons, writesInRange_nil, SlotName.bound, SlotName.layoutField]

theorem strengthWrites_inRange (L : Layout) (l0 l1 l2 l3 : BitVec 16) : WritesInRange L (strengthWrites l0 l1 l2 l3) := by
  simp [strengthWrites, writesInRange_cons, writesInRange_nil, SlotName.bound, SlotName.layoutField]

/-- A decoded record writes its slots in range: each bounded operand is an unsigned field of the frame. -/
theorem writesInRange_of_decodeVariant {L : Layout} (hL : L.Facts) {addr : Byte} {F : List Byte} {v : Variant} {i : Instr}
    (h : decodeVariant L addr F v = .ok i) : WritesInRange L (instrWrites i) := by
  cases v with
  | telemetry =>
    simp only [decodeVariant, decodeTelemetry, bind_eq_ok_iff] at h
    obtain ⟨_, _, _, _, _, _, _, _, _, _, _, _, _, _, _, _, _, _, _, _, _, _, ⟨⟩⟩ := h
    exact telemetryWrites_inRange L addr _ _ _ _ _ _ _ _ _ _ _
  | sysStatus =>
    simp only [decodeVariant, decodeSysStatus, bind_eq_ok_iff] at h
    obtain ⟨_, h0, _, h1, _, h2, _, h3, _, h4, ⟨⟩⟩ := h
    have fits := fun f hf v => Field.fits_of_get (F := F) (v := v) (hL.sysUnsigned f hf)
    exact sysStatusWrites_inRange (fits _ (by simp [Layout.fields]) _ h0) (fits _ (by simp [Layout.fields]) _ h1)
      (fits _ (by simp [Layout.fields]) _ h2) (fits _ (by simp [Layout.fields]) _ h3) (fits _ (by simp [Layout.fields]) _ h4)
  | info =>
    simp only [decodeVariant, decodeInfo, bind_eq_ok_iff] at h
    obtain ⟨_, h0, _, h1, _, h2, _, h3, _, h4, _, _, _, _, ⟨⟩⟩ := h
    have fits := fun f hf v => Field.fits_of_get (F := F) (v := v) (hL.infoUnsigned f hf)
    exact infoWrites_inRange (fits _ (by simp) _ h0) (fits _ (by simp) _ h1) (fits _ (by simp) _ h2)
      (fits _ (by simp) _ h3) (fits _ (by simp) _ h4) _ _
  | rawAccel =>
    simp only [decodeVariant, decodeRawAccel, bind_eq_ok_iff] at h
    obtain ⟨_, _, _, _, _, _, ⟨⟩⟩ := h
    exact rawAccelWrites_inRange L _ _ _
  | strength =>
    simp only [decodeVariant, decodeStrength, bind_eq_ok_iff] at h
    obtain ⟨_, _, _, _, _, _, _, _, ⟨⟩⟩ := h
    exact strengthWrites_inRange L _ _ _ _

/-- A decoded frame writes its slots in range; UNRECOGNIZED writes none. -/
theorem writesInRange_of_decodeFrame {L : Layout} (hL : L.wf = true) {F : List Byte} {i : Instr}
    (h : decodeFrame L F = .ok i) : WritesInRange L (instrWrites i) := by
  have hlen := headerLen_le_of_decodeFrame h
  cases hv : selectVariant L (byteAt F 3) F.length with
  | ok v =>
    rw [decodeFrame_of hlen hv] at h
    exact writesInRange_of_decodeVariant (Layout.facts hL) h
  | error why =>
    obtain ⟨payload, _, hu⟩ := decodeFrame_error hlen hv
    rw [hu] at h
    cases h
    exact writesInRange_nil L

/-- A bounded slot just written reads within its bound. -/
theorem SlotName.number_inRange {L : Layout} {n : SlotName} {k : Nat} {v : Word32} (hk : n.bound L = some k)
    (hv : v.toNat < k) : 0 ≤ n.number ((v.setWidth n.width).setWidth 32) ∧
      n.number ((v.setWidth n.width).setWidth 32) < (k : Int) := by
  have hs : n.signed = false := by
    cases h : n.signed with
    | false => rfl
    | true => rw [SlotName.bound_of_signed L h] at hk; cases hk
  have hle : ((v.setWidth n.width).setWidth 32).toNat ≤ v.toNat := by
    simp only [BitVec.toNat_setWidth]
    exact (Nat.mod_le _ _).trans (Nat.mod_le _ _)
  simp only [SlotName.number, hs, Bool.false_eq_true, if_false]
  omega

/-- After slot writes a slot reads as before, or as the last value written to it. -/
theorem Store.read_writeAll_cases (st : Store) (ws : List SlotWrite) (n : SlotName) :
    (st.writeAll ws).read n = st.read n ∨
    ∃ w ∈ ws, w.slot = n ∧ (st.writeAll ws).read n = some (n.number ((w.value.setWidth n.width).setWidth 32)) := by
  induction ws generalizing st with
  | nil => exact .inl rfl
  | cons w ws ih =>
    rcases ih (st.write w.slot w.value) with h | ⟨u, hu, hn, h⟩
    · by_cases hn : n = w.slot
      · subst hn
        exact .inr ⟨w, List.mem_cons_self, rfl, h.trans (st.read_write_same _ _)⟩
      · exact .inl (h.trans (st.read_write_of_ne _ hn))
    · exact .inr ⟨u, List.mem_cons_of_mem _ hu, hn, h⟩

/-- The only writes of the store are RESET's, after which nothing reads, and those of a decoded frame, which are in range. -/
theorem StepCase.slotsInRange {s t : State} (h : StepCase s t) (hL : s.params.layout.wf = true) (hs : s.SlotsInRange) :
    t.SlotsInRange := by
  rw [slotsInRange_iff] at hs ⊢
  rw [h.params_eq]
  intro n k x hk hx
  rcases h.store_cases with he | ⟨_, _, he⟩ | ⟨F, i, hi, _, he⟩ <;> rw [he] at hx
  · exact hs n k x hk hx
  · rw [Store.read_of_invalid (by rw [Store.get_invalidate])] at hx
    cases hx
  · rcases s.store.read_writeAll_cases (instrWrites i) n with hr | ⟨w, hw, rfl, hr⟩ <;> rw [hr] at hx
    · exact hs n k x hk hx
    · cases hx
      exact SlotName.number_inRange hk (writesInRange_of_decodeFrame hL hi w hw k hk)

/-- Settles O59, from what a step can do to the store (`StepCase.store_cases`) and the ranges of what the decoder hands over. -/
theorem everyStepKeepsTheSlotRanges : Obligations.EveryStepKeepsTheSlotRanges :=
  fun _ _ hL hs h => (step_iff.1 h).slotsInRange hL hs

/-- Settles O56: SEEK with an empty buffer under the default layout, and no slot valid. -/
theorem resetMeetsTheInvariant : Obligations.ResetMeetsTheInvariant := by
  refine ⟨.of_idx_zero rfl rfl Layout.default_wf, slotsInRange_iff.2 fun n k x _ hx => ?_⟩
  have hn : State.reset.store.read n = none := Store.read_of_invalid (Store.get_empty n)
  rw [hn] at hx
  cases hx

end Sys2Proof.Machine

/-! ### Valid bits and `fresh` (spec 10_state.md R30, R37) -/

namespace Sys2Proof.Machine

/-- A slot write clears no valid bit. -/
theorem Store.valid_writeAll {st : Store} {n : SlotName} (h : (st.get n).1 = true) (ws : List SlotWrite) :
    ((st.writeAll ws).get n).1 = true := by
  induction ws generalizing st with
  | nil => exact h
  | cons w ws ih =>
    refine ih ?_
    rw [Store.get_write]
    split
    · rfl
    · exact h

/-- Settles O28: of what a step can do to the store, only RESET clears a valid bit. -/
theorem validSlotStaysValidUntilReset : Obligations.ValidSlotStaysValidUntilReset := by
  intro s t n h hv hr
  rcases (step_iff.1 h).store_cases with he | ⟨rest, hi, _⟩ | ⟨_, i, _, _, he⟩
  · rwa [he]
  · exact absurd hi (hr rest)
  · rw [he]; exact Store.valid_writeAll hv _

/-- The decoder's event is a record exactly for the instructions of that variant. -/
theorem instrEvent_eq_record_iff (i : Instr) (v : Variant) : instrEvent i = .record v ↔ instrVariant i = some v := by
  cases i with
  | unrecognized why addr tag payload => cases why <;> simp [instrEvent, instrVariant, noticeEvent]
  | _ => simp [instrEvent, instrVariant]

/-- Consumer operations do not raise `fresh`. -/
theorem fresh_of_freshAfter {ops : List ConsumerOp} {f : Bool} (h : freshAfter ops f = true) : f = true :=
  (Bool.and_eq_true_iff.1 h).1

/-- A byte's step commits a Telemetry record and sets `fresh`, or raises no such record and does not raise `fresh`. -/
theorem ByteStep.fresh_cases {b : Byte} {s t : State} (h : ByteStep b s t) (he : s.events = []) :
    (t.fresh = true ∧ ∃ F, t.events = [.frame F, .record .telemetry]) ∨
    ((t.fresh = true → s.fresh = true) ∧ .record .telemetry ∉ t.events) := by
  have quiet : ∀ u : State, u.fresh = s.fresh → .record .telemetry ∉ u.events →
      ((u.commit []).fresh = true → s.fresh = true) ∧ .record .telemetry ∉ (u.commit []).events := fun u hf hu =>
    ⟨fun h => hf ▸ fresh_of_freshAfter (u.commit_fresh [] ▸ h), by simpa using hu⟩
  cases h with
  | stopped => exact .inr (quiet s rfl (by simp [he]))
  | seek => exact .inr (quiet (s.seek b) (by simp) (by simp [he]))
  | size => exact .inr (quiet (s.size b) (by simp) (by simp [he]))
  | fill => exact .inr (quiet (s.fill b) (by simp) (by simp [he]))
  | reject _ _ _ F _ addr _ _ => exact .inr (quiet (s.reject addr) (by simp) (by simp [he]))
  | accept _ _ _ F _ _ _ _ i _ =>
    have hev : (execState i (s.handed F)).events = [.frame F, instrEvent i] := by simp [execState_events, he]
    rw [execState_fresh, hev]
    by_cases hv : instrVariant i = some .telemetry
    · rw [if_pos hv, (instrEvent_eq_record_iff i .telemetry).2 hv]
      exact .inl ⟨rfl, F, rfl⟩
    · rw [if_neg hv]
      have hne : Event.record .telemetry ≠ instrEvent i := fun e => hv ((instrEvent_eq_record_iff i .telemetry).1 e.symm)
      exact .inr ⟨fresh_of_freshAfter, by simp [hne]⟩

theorem StepCase.fresh_cases {s t : State} (h : StepCase s t) :
    (t.fresh = true ∧ ∃ F, t.events = [.frame F, .record .telemetry]) ∨
    ((t.fresh = true → s.fresh = true) ∧ .record .telemetry ∉ t.events) := by
  cases h with
  | idle => exact .inr (by simp)
  | byte b during rest hi t hb => exact hb.fresh_cases rfl
  | reset => exact .inr (by simp)
  | syncRestart => exact .inr (by simp)
  | stop => exact .inr (by simp)
  | consumer op => exact .inr ⟨fun hf => fresh_of_freshAfter (State.consume_fresh _ op ▸ hf), by simp⟩

/-- Settles O27, from the two kinds of step that `StepCase.fresh_cases` tells apart. -/
theorem freshRisesExactlyWithATelemetryRecord : Obligations.FreshRisesExactlyWithATelemetryRecord := by
  intro s t h
  rcases (step_iff.1 h).fresh_cases with ⟨hf, hev⟩ | ⟨hf, hev⟩
  · exact ⟨fun _ => ⟨fun _ => hev, fun _ => hf⟩, fun _ => hf⟩
  · refine ⟨fun h0 => ⟨fun h1 => ?_, fun ⟨F, hF⟩ => ?_⟩, fun hm => absurd hm hev⟩
    · rw [hf h1] at h0; cases h0
    · exact absurd (by simp [hF]) hev

end Sys2Proof.Machine

/-! ### The stopped block (spec 10_state.md R39, 41_framesync.md R128) -/

namespace Sys2Proof.Machine

theorem step_byte_of_stopped {s : State} {b : Byte} {during : List SchedItem} {rest : List Input} (hs : s.stopped = true)
    (hi : s.inputs = .byte b during :: rest) : step s = .next ((s.offered during rest).commit []) :=
  step_iff.2 (.byte b during rest hi _ (.stopped hs))

/-- Settles O5: the step of the byte is a commit of no writes. -/
theorem stoppedBlockIgnoresAByte : Obligations.StoppedBlockIgnoresAByte := by
  intro s b during rest hs hi
  refine ⟨_, step_byte_of_stopped hs hi, fun n => ?_, ?_, ?_, fun a => ?_, ?_, ?_, ?_, State.commit_fresh _ _, ?_⟩ <;>
    simp [hs]

/-- What a stopped block keeps: `stopped`, the store, `expected_size` and the buffer; the cursor but for a SYNC_RESTART. -/
structure Frozen (s t : State) : Prop where
  stopped      : t.stopped = true
  store        : SameStore s t
  expectedSize : t.expectedSize = s.expectedSize
  bytes        : ∀ a, t.buf.read a = s.buf.read a
  idx          : t.idx = s.idx ∨ t.idx = 0

theorem Frozen.refl {s : State} (h : s.stopped = true) : Frozen s s :=
  ⟨h, fun _ => rfl, rfl, fun _ => rfl, .inl rfl⟩

theorem Frozen.trans {s t u : State} (h : Frozen s t) (h' : Frozen t u) : Frozen s u where
  stopped := h'.stopped
  store n := (h'.store n).trans (h.store n)
  expectedSize := h'.expectedSize.trans h.expectedSize
  bytes a := (h'.bytes a).trans (h.bytes a)
  idx := h'.idx.elim (fun e => e ▸ h.idx) .inr

/-- A stopped block answers every input, and but for RESET stays as it was. -/
theorem exists_step_frozen {s : State} (hs : s.stopped = true) (hr : ∀ i ∈ s.inputs, i ≠ .reset) :
    ∃ t, step s = .next t ∧ Frozen s t := by
  match hi : s.inputs with
  | [] => exact ⟨_, step_iff.2 (.idle hi), hs, fun _ => rfl, rfl, fun _ => rfl, .inl rfl⟩
  | .byte b during :: rest =>
    exact ⟨_, step_byte_of_stopped hs hi, by simp [hs], fun n => by simp, by simp, by simp, .inl (by simp)⟩
  | .reset :: rest => exact absurd rfl (hr .reset (by simp [hi]))
  | .syncRestart :: rest => exact ⟨_, step_iff.2 (.syncRestart rest hi), hs, fun _ => rfl, rfl, fun _ => rfl, .inr rfl⟩
  | .stop :: rest => exact ⟨_, step_iff.2 (.stop rest hi), rfl, fun _ => rfl, rfl, fun _ => rfl, .inl rfl⟩
  | .consumer op :: rest =>
    exact ⟨_, step_iff.2 (.consumer op rest hi), by simp [hs], fun n => by simp, by simp, by simp, .inl (by simp)⟩

/-- A run of a stopped block without RESET, by induction on its steps: each takes the first input and keeps `Frozen`. -/
theorem exists_run_frozen (k : Nat) {s : State} (hs : s.stopped = true) (hr : ∀ i ∈ s.inputs, i ≠ .reset) :
    ∃ t : State, Sys2Proof.core.run k s = .next t ∧ Frozen s t := by
  induction k generalizing s with
  | zero => exact ⟨s, rfl, .refl hs⟩
  | succ k ih =>
    obtain ⟨u, hu, hf⟩ := exists_step_frozen hs hr
    have hi : u.inputs = s.inputs.tail := eachStepTakesTheFirstInput s u hu
    obtain ⟨t, ht, hf'⟩ := ih hf.stopped fun i h => hr i (List.mem_of_mem_tail (hi ▸ h))
    exact ⟨t, (core_run_succ hu k).trans ht, hf.trans hf'⟩

/-- Settles O6, from the induction on the number of steps (`exists_run_frozen`). -/
theorem stoppedBlockStaysFrozenUntilReset : Obligations.StoppedBlockStaysFrozenUntilReset := by
  intro k s hs hr
  obtain ⟨t, ht, hf⟩ := exists_run_frozen k hs hr
  exact ⟨t, ht, hf.stopped, hf.store, hf.expectedSize, hf.bytes, hf.idx⟩

end Sys2Proof.Machine

/-! ### Commits and the consumer (spec 20_memory.md R58, R61, R62, R64) -/

namespace Sys2Proof.Machine

theorem runSchedule_write_some {ws : List SlotWrite} {k : Nat} {w : SlotWrite} (h : ws[k]? = some w)
    (items : List SchedItem) (s : State) :
    runSchedule (.write k :: items) ws s = runSchedule items (ws.eraseIdx k) (s.writeSlot w) := by
  simp [runSchedule, h]

theorem runSchedule_write_none {ws : List SlotWrite} {k : Nat} (h : ws[k]? = none) (items : List SchedItem) (s : State) :
    runSchedule (.write k :: items) ws s = runSchedule items ws s := by
  simp [runSchedule, h]

/-- A slot that one of the writes has reached already reads as it will after all of them: each slot is written once. -/
theorem Store.read_write_eq_read_writeAll (st : Store) {ws : List SlotWrite} (hd : (ws.map (·.slot)).Nodup) {w : SlotWrite}
    (hw : w ∈ ws) : (st.write w.slot w.value).read w.slot = (st.writeAll ws).read w.slot :=
  Store.read_congr ((st.get_write_same _ _).trans (st.get_writeAll_of_mem ws hd hw).symm)

/-- What the consumer operations `ops` inside a commit answer, which turns the store `old` into `new` and finds `fresh` at `f`:
a take answers what the takes before it have left of `f`; and each slot has one moment `m`, before which a READ answers its old
value and from which on its new one. -/
structure CommitReplies (ops : List ConsumerOp) (old new : Store) (f : Bool) (rs : List Reply) : Prop where
  length : rs.length = ops.length
  takes  : ∀ k : Nat, ops[k]? = some .takeIfFresh → rs[k]? = some (.took (freshAfter (ops.take k) f))
  reads  : ∀ n, ∃ m, ∀ k : Nat, ops[k]? = some (.read n) →
    rs[k]? = some (.value n (if k < m then old.read n else new.read n))

theorem CommitReplies.nil (old new : Store) (f : Bool) : CommitReplies [] old new f [] where
  length := rfl
  takes := by simp
  reads := by simp

/-- An operation that comes first meets the old store and `fresh` as it was. -/
theorem CommitReplies.consume {ops : List ConsumerOp} {new : Store} {rs : List Reply} {s : State} {op : ConsumerOp}
    (h : CommitReplies ops s.store new (s.consume op).fresh rs) :
    CommitReplies (op :: ops) s.store new s.fresh (s.answer op :: rs) where
  length := by simp [h.length]
  takes k hk := by
    cases k with
    | zero => cases Option.some.inj hk; simp [State.answer]
    | succ k =>
      rw [List.take_succ_cons, freshAfter_cons, ← State.consume_fresh]
      exact h.takes k hk
  reads n := by
    obtain ⟨m, hm⟩ := h.reads n
    refine ⟨m + 1, fun k hk => ?_⟩
    cases k with
    | zero => cases Option.some.inj hk; simp [State.answer]
    | succ k => simpa using hm k hk

/-- A slot write that comes first is the moment of its slot, and moves the moment of no other slot. -/
theorem CommitReplies.write {ops : List ConsumerOp} {old : Store} {ws : List SlotWrite} {f : Bool} {rs : List Reply}
    (hd : (ws.map (·.slot)).Nodup) {w : SlotWrite} (hw : w ∈ ws)
    (h : CommitReplies ops (old.write w.slot w.value) (old.writeAll ws) f rs) :
    CommitReplies ops old (old.writeAll ws) f rs where
  length := h.length
  takes := h.takes
  reads n := by
    obtain ⟨m, hm⟩ := h.reads n
    by_cases hn : n = w.slot
    · subst hn
      refine ⟨0, fun k hk => ?_⟩
      simpa [old.read_write_eq_read_writeAll hd hw] using hm k hk
    · refine ⟨m, fun k hk => ?_⟩
      simpa [old.read_write_of_ne _ hn] using hm k hk

/-- Induction on the interleaving: its next item is a consumer operation, a slot write, or passed over. -/
theorem exists_commitReplies (items : List SchedItem) (ws : List SlotWrite) (s : State) (hd : (ws.map (·.slot)).Nodup) :
    ∃ rs, (runSchedule items ws s).replies = s.replies ++ rs ∧
      CommitReplies (consumerOps items) s.store (s.store.writeAll ws) s.fresh rs := by
  induction items generalizing ws s with
  | nil => exact ⟨[], by simp [runSchedule], .nil _ _ _⟩
  | cons i items ih =>
    cases i with
    | consumer op =>
      obtain ⟨rs, hrs, h⟩ := ih ws (s.consume op) hd
      rw [State.consume_store] at h
      exact ⟨s.answer op :: rs, by simp [runSchedule, hrs], h.consume⟩
    | write k =>
      cases hk : ws[k]? with
      | some w =>
        obtain ⟨rs, hrs, h⟩ := ih (ws.eraseIdx k) (s.writeSlot w) (eraseIdx_slots_nodup hd k)
        rw [State.writeSlot_store, Store.writeAll_eraseIdx _ _ hd k hk] at h
        exact ⟨rs, runSchedule_write_some hk items s ▸ hrs, h.write hd (List.mem_of_getElem? hk)⟩
      | none => exact runSchedule_write_none hk items s ▸ ih ws s hd

theorem execState_replies_eq (i : Instr) (s : State) : (execState i s).replies = (s.commit (instrWrites i)).replies := by
  unfold execState
  split <;> rfl

/-- What consumer operations inside the step of an instruction answer. -/
theorem exec_commitReplies {i : Instr} {s t : State} (h : exec i s = .next t) :
    ∃ rs, t.replies = s.replies ++ rs ∧ CommitReplies (consumerOps s.sched) s.store t.store s.fresh rs := by
  rw [exec_eq] at h
  cases h
  rw [execState_replies_eq, execState_store]
  exact exists_commitReplies s.sched (instrWrites i) s (instrWrites_nodup i)

/-- Settles O53: before its slot's moment a READ answers the old value, after it the new one. -/
theorem consumerInsideACommitSeesOldOrNew : Obligations.ConsumerInsideACommitSeesOldOrNew := by
  intro i s t h
  obtain ⟨rs, hrs, hc⟩ := exec_commitReplies h
  refine ⟨rs, hrs, hc.length, fun k r hr => ⟨fun n hk => ?_, fun hk => ?_⟩⟩
  · obtain ⟨m, hm⟩ := hc.reads n
    have hv := Option.some.inj (hr.symm.trans (hm k hk))
    by_cases hkm : k < m
    · exact .inl (by rw [hv, if_pos hkm])
    · exact .inr (by rw [hv, if_neg hkm])
  · exact Option.some.inj (hr.symm.trans (hc.takes k hk))

/-- Settles O54: a READ that did not answer the old value came at or after its slot's moment, so a later one did too. -/
theorem newSlotValueIsNotUnseen : Obligations.NewSlotValueIsNotUnseen := by
  intro i s t rs n j k h hrs hjk hj hk hold
  obtain ⟨rs', hrs', hc⟩ := exec_commitReplies h
  obtain rfl : rs' = rs := List.append_cancel_left (hrs'.symm.trans hrs)
  obtain ⟨m, hm⟩ := hc.reads n
  have hmj : ¬ j < m := fun hlt => hold (by rw [hm j hj, if_pos hlt])
  rw [hm k hk, if_neg (by omega)]

/-- The head of a permutation of `ws` has a position in `ws`, and its tail is a permutation of what stands elsewhere. -/
theorem exists_eraseIdx_perm_of_cons_perm {α : Type*} {w : α} {l ws : List α} (h : (w :: l).Perm ws) :
    ∃ k, ws[k]? = some w ∧ l.Perm (ws.eraseIdx k) := by
  obtain ⟨k, hk, rfl⟩ := List.getElem_of_mem (h.subset List.mem_cons_self)
  exact ⟨k, List.getElem?_eq_getElem hk, (h.trans (List.getElem_cons_eraseIdx_perm hk).symm).cons_inv⟩

/-- Settles O55, by induction on the actions: a slot write is the item with its position among the writes still to be done,
and after the last action none is left. -/
theorem everyInterleavingOfACommitIsAdmitted : Obligations.EveryInterleavingOfACommitIsAdmitted := by
  intro s ws acts hp
  induction acts generalizing s ws with
  | nil =>
    obtain rfl : ws = [] := List.nil_perm.1 hp
    exact ⟨[], rfl, rfl⟩
  | cons a acts ih =>
    cases a with
    | inl w =>
      obtain ⟨k, hk, hp'⟩ := exists_eraseIdx_perm_of_cons_perm hp
      obtain ⟨items, hops, hrun⟩ := ih (s.writeSlot w) (ws.eraseIdx k) hp'
      exact ⟨.write k :: items, hops, (runSchedule_write_some hk items s).trans hrun⟩
    | inr op =>
      obtain ⟨items, hops, hrun⟩ := ih (s.consume op) ws hp
      exact ⟨.consumer op :: items, congrArg (op :: ·) hops, hrun⟩

end Sys2Proof.Machine

/-! ### Dispatch on tag and length (spec 30_encoding.md R83, 42_decoder.md R131) -/

namespace Sys2Proof

/-- The variants whose stored length is exact (R83, R86). -/
def Variant.gated : Variant → Bool
  | .telemetry | .info | .rawAccel => false
  | .sysStatus | .strength => true

/-- The stored bytes of a record before `extra`: the gate length, or what the fields reach (R83, R86). -/
def Layout.frameLen (L : Layout) : Variant → Nat
  | .sysStatus => sysStatusLen
  | .strength  => strengthLen
  | v          => L.minLen v

/-- The length condition of a variant (R83). -/
def Layout.takesLength (L : Layout) (v : Variant) (len : Nat) : Bool :=
  if v.gated then decide (len = L.frameLen v) else decide (L.frameLen v ≤ len)

/-- Why a frame with the variant's tag is no record (R83, R85). -/
def Variant.gateReason (v : Variant) : Reason := if v.gated then .lengthMismatch else .shortFrame

theorem Variant.tag_injective : Function.Injective Variant.tag := by
  intro v w h
  cases v <;> cases w <;> simp [Variant.tag] at h ⊢

/-- On a variant's tag the length alone decides. -/
theorem selectVariant_tag (L : Layout) (v : Variant) (len : Nat) :
    selectVariant L v.tag len = gate (L.takesLength v len) v v.gateReason := by
  cases v <;> rfl

theorem selectVariant_of_forall_ne {tag : Byte} (h : ∀ v : Variant, tag ≠ v.tag) (L : Layout) (len : Nat) :
    selectVariant L tag len = .error .unrecognizedTag := by
  simp [selectVariant, h]

theorem selectVariant_eq_ok_iff {L : Layout} {tag : Byte} {len : Nat} {v : Variant} :
    selectVariant L tag len = .ok v ↔ tag = v.tag ∧ L.takesLength v len = true := by
  by_cases h : ∃ w : Variant, tag = w.tag
  · obtain ⟨w, rfl⟩ := h
    rw [selectVariant_tag, gate, Variant.tag_injective.eq_iff]
    constructor
    · intro h
      split at h
      · next hl => cases h; exact ⟨rfl, hl⟩
      · cases h
    · rintro ⟨rfl, hl⟩
      rw [if_pos hl]
  · rw [not_exists] at h
    rw [selectVariant_of_forall_ne h]
    exact ⟨nofun, fun ⟨ht, _⟩ => absurd ht (h v)⟩

theorem selectVariant_eq_error_iff {L : Layout} {tag : Byte} {len : Nat} {why : Reason} :
    selectVariant L tag len = .error why ↔
      (∃ v : Variant, tag = v.tag ∧ L.takesLength v len = false ∧ why = v.gateReason) ∨
      ((∀ v : Variant, tag ≠ v.tag) ∧ why = .unrecognizedTag) := by
  by_cases h : ∃ w : Variant, tag = w.tag
  · obtain ⟨w, rfl⟩ := h
    rw [selectVariant_tag, gate]
    constructor
    · intro h
      split at h
      · cases h
      · next hl => cases h; exact .inl ⟨w, rfl, by simpa using hl, rfl⟩
    · rintro (⟨v, ht, hl, rfl⟩ | ⟨h, _⟩)
      · rw [Variant.tag_injective ht, if_neg (by simp [hl])]
      · exact absurd rfl (h w)
  · rw [not_exists] at h
    rw [selectVariant_of_forall_ne h]
    constructor
    · intro he; cases he; exact .inr ⟨h, rfl⟩
    · rintro (⟨v, ht, _⟩ | ⟨_, rfl⟩)
      · exact absurd ht (h v)
      · rfl

/-- The lengths of the default layout: 31, 16, 15, 10 and 12 (decisions D6, D8). -/
theorem takesLength_default (v : Variant) (len : Nat) : Layout.default.takesLength v len =
    match v with
    | .telemetry => decide (31 ≤ len)
    | .sysStatus => decide (len = 16)
    | .info      => decide (15 ≤ len)
    | .rawAccel  => decide (10 ≤ len)
    | .strength  => decide (len = 12) := by
  cases v <;> rfl

theorem Variant.exists_iff {p : Variant → Prop} :
    (∃ v, p v) ↔ p .telemetry ∨ p .sysStatus ∨ p .info ∨ p .rawAccel ∨ p .strength := by
  constructor
  · rintro ⟨v, h⟩; cases v <;> simp [h]
  · rintro (h | h | h | h | h) <;> exact ⟨_, h⟩

theorem Variant.forall_iff {p : Variant → Prop} :
    (∀ v, p v) ↔ p .telemetry ∧ p .sysStatus ∧ p .info ∧ p .rawAccel ∧ p .strength :=
  ⟨fun h => ⟨h _, h _, h _, h _, h _⟩, fun ⟨h1, h2, h3, h4, h5⟩ v => by cases v <;> assumption⟩

/-- Settles O43: what each answer of the dispatch says of tag and length, with the lengths of the default layout. -/
theorem dispatchIsOnTagThenLength : Obligations.DispatchIsOnTagThenLength := by
  intro tag len
  simp only [selectVariant_eq_ok_iff, selectVariant_eq_error_iff, Variant.exists_iff, Variant.forall_iff, takesLength_default,
    decide_eq_true_eq, decide_eq_false_iff_not]
  refine ⟨.rfl, .rfl, .rfl, .rfl, .rfl, ?_, ?_, ?_⟩ <;> simp [Variant.tag, Variant.gateReason, Variant.gated]

end Sys2Proof

/-! ### The opcode table (spec 30_encoding.md R71, R84, R90) -/

namespace Sys2Proof

theorem headerWord_inj {m n a t m' n' a' t' : Byte} :
    headerWord m n a t = headerWord m' n' a' t' ↔ m = m' ∧ n = n' ∧ a = a' ∧ t = t' := by
  have h := toNat_word m n a t
  have h' := toNat_word m' n' a' t'
  have := m.isLt
  have := n.isLt
  have := a.isLt
  have := m'.isLt
  have := n'.isLt
  have := a'.isLt
  simp only [headerWord, ← BitVec.toNat_inj, h, h']
  omega

theorem headerWord_and (m n a t m' n' a' t' : Byte) :
    headerWord m n a t &&& headerWord m' n' a' t' = headerWord (m &&& m') (n &&& n') (a &&& a') (t &&& t') := by
  unfold headerWord
  refine (BitVec.and_append (x₁ := t ++ a ++ n) (x₂ := t' ++ a' ++ n')).trans ?_
  rw [BitVec.and_append, BitVec.and_append]

/-- The size byte of a header word (R71). -/
theorem headerWord_size (m n a t : Byte) : (headerWord m n a t >>> 8).setWidth 8 = n := by
  have h := toNat_word m n a t
  have := m.isLt
  have := n.isLt
  apply BitVec.eq_of_toNat_eq
  simp only [headerWord, BitVec.toNat_setWidth, BitVec.toNat_ushiftRight, h, Nat.shiftRight_eq_div_pow]
  omega

/-- The row takes the header word: `match`, `mask` and minimum N hold (R90). -/
def OpcodeRow.takes (r : OpcodeRow) (h : Word32) : Bool :=
  decide (h &&& r.mask = r.pattern ∧ r.nMin ≤ ((h >>> 8).setWidth 8).toNat)

theorem selectRow_cons (h : Word32) (r : OpcodeRow) (rs : List OpcodeRow) :
    selectRow h (r :: rs) = if r.takes h then some r else selectRow h rs := by
  simp [selectRow, OpcodeRow.takes]

/-- The opcode table's row of a variant (R84): marker, tag and, of the gated ones, the size byte. -/
def Variant.row : Variant → OpcodeRow
  | .telemetry => ⟨some .telemetry, headerWord startMarker 0 0 0x02, headerWord 0xFF 0 0 0xFF, 27⟩
  | .sysStatus => ⟨some .sysStatus, headerWord startMarker 12 0 0x08, headerWord 0xFF 0xFF 0 0xFF, 0⟩
  | .info      => ⟨some .info, headerWord startMarker 0 0 0x18, headerWord 0xFF 0 0 0xFF, 11⟩
  | .rawAccel  => ⟨some .rawAccel, headerWord startMarker 0 0 0x1D, headerWord 0xFF 0 0 0xFF, 6⟩
  | .strength  => ⟨some .strength, headerWord startMarker 8 0 0x33, headerWord 0xFF 0xFF 0 0xFF, 0⟩

/-- The opcode table's last row: any header with the marker (R84). -/
def unrecognizedRow : OpcodeRow := ⟨none, headerWord startMarker 0 0 0, headerWord 0xFF 0 0 0, 0⟩

theorem opcodeRows_eq : opcodeRows = [Variant.telemetry.row, Variant.sysStatus.row, Variant.info.row, Variant.rawAccel.row,
    Variant.strength.row, unrecognizedRow] := by decide

/-- A variant's row takes the headers that dispatch gives to the variant. -/
theorem Variant.row_takes_iff (v : Variant) (n addr tag : Byte) :
    v.row.takes (headerWord startMarker n addr tag) = true ↔
      selectVariant Layout.default tag (n.toNat + 4) = .ok v := by
  rw [selectVariant_eq_ok_iff, takesLength_default, OpcodeRow.takes, headerWord_size]
  have h255 : ∀ b : Byte, b &&& 255#8 = b := fun b => b.and_allOnes
  have hn : ∀ k : Byte, n = k ↔ n.toNat = k.toNat := fun k => BitVec.toNat_inj.symm
  cases v <;> simp [Variant.row, headerWord_and, headerWord_inj, Variant.tag, h255, hn, and_comm]

theorem unrecognizedRow_takes (n addr tag : Byte) : unrecognizedRow.takes (headerWord startMarker n addr tag) = true := by
  simp [unrecognizedRow, OpcodeRow.takes, headerWord_and, startMarker]

/-- Settles O44: a variant's row takes exactly the headers of its variant, and the last row takes what is left. -/
theorem opcodeTableAgreesWithDispatch : Obligations.OpcodeTableAgreesWithDispatch := by
  intro n addr tag
  simp only [opcodeRows_eq, selectRow_cons, Variant.row_takes_iff, unrecognizedRow_takes, if_true]
  cases selectVariant Layout.default tag (n.toNat + 4) with
  | ok v => cases v <;> exact ⟨_, rfl, rfl⟩
  | error why => exact ⟨_, rfl, rfl⟩

end Sys2Proof

/-! ### The orientation word and sample frames (spec 30_encoding.md R81, R90) -/

namespace Sys2Proof

open Sys2Proof.Machine

/-- Settles O47: the word is the number that its four bytes stand for, and each field a quotient and remainder of it. -/
theorem orientationFieldsTileTheWord : Obligations.OrientationFieldsTileTheWord := by
  intro b4 b5 b6 b7
  have h := toNat_word b4 b5 b6 b7
  have h4 := b4.isLt
  have h5 := b5.isLt
  have h6 := b6.isLt
  simp only [rollField, pitchField, yawField, BitVec.extractLsb'_toNat, h, Nat.shiftRight_eq_div_pow]
  omega

/-- Settles O42: six concrete words and frames, evaluated. -/
theorem sampleFramesDecode : Obligations.SampleFramesDecode := by
  unfold Obligations.SampleFramesDecode
  decide +kernel

end Sys2Proof

/-! ### The words that a field can read (spec 20_memory.md R52, 30_encoding.md R82) -/

namespace Sys2Proof

theorem setWidth_signExtend_same {w k : Nat} (h : w ≤ k) (x : BitVec w) : (x.signExtend k).setWidth w = x := by
  ext i hi
  rw [BitVec.getElem_setWidth, BitVec.getLsbD_signExtend]
  simp [hi, Nat.lt_of_lt_of_le hi h]

theorem setWidth_setWidth_same {w k : Nat} (h : w ≤ k) (x : BitVec w) : (x.setWidth k).setWidth w = x := by
  rw [BitVec.setWidth_setWidth_of_le _ h, BitVec.setWidth_eq]

theorem FieldWidth.pow_bytes (w : FieldWidth) : 256 ^ w.bytes = 2 ^ (8 * w.bytes) := by cases w <;> rfl

theorem FieldWidth.bits_le (w : FieldWidth) : 8 * w.bytes ≤ 32 := by cases w <;> decide

/-- A field extends its `w` bits as its sign says. -/
theorem Field.extend_toNat {f : Field} {w : Nat} (hw : 8 * f.width.bytes = w) (b : BitVec w) :
    f.extend b.toNat = if f.signed then b.signExtend 32 else b.setWidth 32 := by
  subst hw
  rw [Field.extend, BitVec.ofNat_toNat, BitVec.ofNat_toNat, BitVec.setWidth_eq]

/-- Extending loses no bit. -/
theorem Field.setWidth_extend {f : Field} {w : Nat} (hw : 8 * f.width.bytes = w) (b : BitVec w) :
    (f.extend b.toNat).setWidth w = b := by
  have hle : w ≤ 32 := hw ▸ f.width.bits_le
  rw [Field.extend_toNat hw]
  split
  · exact setWidth_signExtend_same hle b
  · exact setWidth_setWidth_same hle b

/-- Extending keeps the number that the bytes stand for. -/
theorem Field.extend_toNat_mod (f : Field) {x : Nat} (h : x < 256 ^ f.width.bytes) :
    (f.extend x).toNat % 256 ^ f.width.bytes = x := by
  rw [f.width.pow_bytes] at h ⊢
  have hx : x = (BitVec.ofNat (8 * f.width.bytes) x).toNat := by rw [BitVec.toNat_ofNat, Nat.mod_eq_of_lt h]
  rw [hx, ← BitVec.toNat_setWidth, Field.setWidth_extend rfl]

/-- The word is one that the field can read: cut to the field's width and extended again it is the same. -/
def Field.Holds (f : Field) (v : Word32) : Prop := f.extend (v.toNat % 256 ^ f.width.bytes) = v

theorem Field.holds_iff {f : Field} {w : Nat} (hw : 8 * f.width.bytes = w) (v : Word32) :
    f.Holds v ↔ (if f.signed then (v.setWidth w).signExtend 32 else (v.setWidth w).setWidth 32) = v := by
  rw [Field.Holds, f.width.pow_bytes, hw, ← BitVec.toNat_setWidth, Field.extend_toNat hw]

theorem Field.get_eq_ok_iff {f : Field} {F : List Byte} {v : Word32} :
    f.get F = .ok v ↔ ∃ x, frameRead F f.offset f.width.bytes = some x ∧ f.extend x = v := by
  unfold Field.get
  split
  · next x hx => simp [hx]
  · next hx => simp [hx]

theorem Field.holds_of_get {f : Field} {F : List Byte} {v : Word32} (h : f.get F = .ok v) : f.Holds v := by
  obtain ⟨x, hx, rfl⟩ := Field.get_eq_ok_iff.1 h
  rw [Field.Holds, f.extend_toNat_mod (frameRead_lt hx)]

/-- An unsigned field can read what fits it. -/
theorem Field.holds_iff_fits {f : Field} (hs : f.signed = false) (v : Word32) : f.Holds v ↔ f.fits v = true := by
  have hpos : 0 < 256 ^ f.width.bytes := by positivity
  rw [Field.fits, decide_eq_true_eq, Field.Holds, ← BitVec.toNat_inj, f.extend_lt hs (Nat.mod_lt _ hpos)]
  exact ⟨fun h => h ▸ Nat.mod_lt _ hpos, Nat.mod_eq_of_lt⟩

theorem Field.holds_of_four {f : Field} (hw : f.width = .four) (v : Word32) : f.Holds v := by
  rw [Field.holds_iff (w := 32) (by rw [hw]; rfl)]
  split
  · rw [BitVec.setWidth_eq, BitVec.signExtend_eq]
  · rw [BitVec.setWidth_eq, BitVec.setWidth_eq]

theorem Field.holds_two_signed_iff {f : Field} (hf : f.width = .two ∧ f.signed = true) (v : Word32) :
    f.Holds v ↔ (v.setWidth 16).signExtend 32 = v := by
  rw [Field.holds_iff (w := 16) (by rw [hf.1]; rfl), if_pos hf.2]

theorem Field.holds_two_unsigned_iff {f : Field} (hf : f.width = .two ∧ f.signed = false) (v : Word32) :
    f.Holds v ↔ (v.setWidth 16).setWidth 32 = v := by
  rw [Field.holds_iff (w := 16) (by rw [hf.1]; rfl), if_neg (by simp [hf.2])]

theorem Field.holds_one_unsigned_iff {f : Field} (hf : f.width = .one ∧ f.signed = false) (v : Word32) :
    f.Holds v ↔ (v.setWidth 8).setWidth 32 = v := by
  rw [Field.holds_iff (w := 8) (by rw [hf.1]; rfl), if_neg (by simp [hf.2])]

theorem Field.holds_signExtend {f : Field} (hf : f.width = .two ∧ f.signed = true) (x : BitVec 16) :
    f.Holds (x.signExtend 32) := by
  rw [Field.holds_two_signed_iff hf, setWidth_signExtend_same (by decide)]

theorem Field.holds_setWidth_two {f : Field} (hf : f.width = .two ∧ f.signed = false) (x : BitVec 16) :
    f.Holds (x.setWidth 32) := by
  rw [Field.holds_two_unsigned_iff hf, setWidth_setWidth_same (by decide) x]

theorem Field.holds_setWidth_one {f : Field} (hf : f.width = .one ∧ f.signed = false) (x : Byte) :
    f.Holds (x.setWidth 32) := by
  rw [Field.holds_one_unsigned_iff hf, setWidth_setWidth_same (by decide) x]

/-- The operand kept of a field that is narrower than 32 bits is all that the field reads. -/
theorem Field.get_two_signed {f : Field} (hf : f.width = .two ∧ f.signed = true) {F : List Byte} {v : Word32}
    (h : f.get F = .ok v) : f.get F = .ok ((v.setWidth 16).signExtend 32) := by
  rw [(Field.holds_two_signed_iff hf v).1 (Field.holds_of_get h), h]

theorem Field.get_two_unsigned {f : Field} (hf : f.width = .two ∧ f.signed = false) {F : List Byte} {v : Word32}
    (h : f.get F = .ok v) : f.get F = .ok ((v.setWidth 16).setWidth 32) := by
  rw [(Field.holds_two_unsigned_iff hf v).1 (Field.holds_of_get h), h]

theorem Field.get_one_unsigned {f : Field} (hf : f.width = .one ∧ f.signed = false) {F : List Byte} {v : Word32}
    (h : f.get F = .ok v) : f.get F = .ok ((v.setWidth 8).setWidth 32) := by
  rw [(Field.holds_one_unsigned_iff hf v).1 (Field.holds_of_get h), h]

end Sys2Proof

/-! ### An instruction as the list of its fields (spec 30_encoding.md R76 to R80, 42_decoder.md R132 to R136) -/

namespace Sys2Proof

open Sys2Proof.Machine

/-- The address byte of an instruction. -/
def Instr.addr : Instr → Byte
  | .telemetry a _ _ _ _ _ _ _ _ _ _ _ _ => a
  | .sysStatus a _ _ _ _ _ => a
  | .info a _ _ _ _ _ _ _ _ => a
  | .rawAccel a _ _ _ _ => a
  | .strength a _ _ _ _ => a
  | .unrecognized _ a _ _ => a

/-- The bytes behind the last field of a record; a gated record has none. -/
def Instr.extra : Instr → List Byte
  | .telemetry _ _ _ _ _ _ _ _ _ _ _ _ extra => extra
  | .info _ _ _ _ _ _ _ _ extra => extra
  | .rawAccel _ _ _ _ extra => extra
  | .sysStatus _ _ _ _ _ _ | .strength _ _ _ _ _ | .unrecognized _ _ _ _ => []

/-- The fields of a record with the word that each reads. -/
def Instr.fieldValues (L : Layout) : Instr → List (Field × Word32)
  | .telemetry _ o x y z vx vy vz mv bc st pe _ =>
      [(L.orient, o), (L.posX, x), (L.posY, y), (L.posZ, z), (L.velX, vx.signExtend 32), (L.velY, vy.signExtend 32),
       (L.velZ, vz.signExtend 32), (L.voltageMv, mv.setWidth 32), (L.beacons, bc.setWidth 32), (L.status, st.setWidth 32),
       (L.posErr, pe.setWidth 32)]
  | .sysStatus _ ident cfg log cap size =>
      [(L.sysIdentifier, ident), (L.sysConfigStatus, cfg), (L.sysLogStatus, log), (L.sysLoggerCapacity, cap),
       (L.sysLogSize, size)]
  | .info _ hw fwt fwv pmin pmaj hash cnt _ =>
      [(L.hwId, hw), (L.fwType, fwt), (L.fwVersion, fwv), (L.protoMinor, pmin), (L.protoMajor, pmaj), (L.commitHash, hash),
       (L.commitCount, cnt.setWidth 32)]
  | .rawAccel _ x y z _ => [(L.accX, x.signExtend 32), (L.accY, y.signExtend 32), (L.accZ, z.signExtend 32)]
  | .strength _ l0 l1 l2 l3 =>
      [(L.lvl0, l0.signExtend 32), (L.lvl1, l1.signExtend 32), (L.lvl2, l2.signExtend 32), (L.lvl3, l3.signExtend 32)]
  | .unrecognized _ _ _ _ => []

theorem encode_record {i : Instr} {v : Variant} (h : instrVariant i = some v) (L : Layout) :
    encode L i = frameWith v.tag i.addr (L.frameLen v) (i.fieldValues L) i.extra := by
  cases i <;> cases h <;> rfl

theorem fieldValues_map_fst {i : Instr} {v : Variant} (h : instrVariant i = some v) (L : Layout) :
    (i.fieldValues L).map Prod.fst = L.fields v := by
  cases i <;> cases h <;> rfl

/-- A record is well-formed when each of its fields can read its value and the frame has room (R70, R75). Only the unsigned
fields whose width the spec leaves to the layout are a condition; every other operand is as wide as its field. -/
theorem wf_record_iff {L : Layout} (hL : L.Facts) {i : Instr} {v : Variant} (h : instrVariant i = some v) :
    i.wf L = true ↔
      (∀ p ∈ i.fieldValues L, p.1.Holds p.2) ∧ L.frameLen v + i.extra.length ≤ headerLen + maxPayload := by
  cases i with
  | telemetry =>
    cases h
    have position := fun f hf => Field.holds_of_four (hL.position f hf).1
    have velocity := fun f hf => Field.holds_signExtend (hL.velocity f hf)
    have byte := fun f hf => Field.holds_setWidth_one (hL.bytes f hf)
    simp only [List.forall_mem_cons] at position velocity byte
    simp [Instr.wf, Layout.roomFor, Instr.fieldValues, Instr.extra, Layout.frameLen, Field.holds_of_four hL.orient.1,
      position, velocity, Field.holds_setWidth_two hL.voltage, byte]
  | sysStatus =>
    cases h
    have fits := fun f hf => Field.holds_iff_fits (hL.sysUnsigned f hf)
    simp only [Layout.fields, List.forall_mem_cons] at fits
    simp [Instr.wf, Instr.fieldValues, Instr.extra, Layout.frameLen, fits, and_assoc, sysStatusLen, headerLen, maxPayload]
  | info =>
    cases h
    have fits := fun f hf => Field.holds_iff_fits (hL.infoUnsigned f hf)
    simp only [List.forall_mem_cons] at fits
    simp [Instr.wf, Layout.roomFor, Instr.fieldValues, Instr.extra, Layout.frameLen, fits, and_assoc,
      Field.holds_of_four hL.commitHash.1, Field.holds_setWidth_two hL.commitCount]
  | rawAccel =>
    cases h
    have axis := fun f hf => Field.holds_signExtend (hL.rawAccel f hf)
    simp only [Layout.fields, List.forall_mem_cons] at axis
    simp [Instr.wf, Layout.roomFor, Instr.fieldValues, Instr.extra, Layout.frameLen, axis]
  | strength =>
    cases h
    have level := fun f hf => Field.holds_signExtend (hL.levels f hf)
    simp only [Layout.fields, List.forall_mem_cons] at level
    simp [Instr.wf, Instr.fieldValues, Instr.extra, Layout.frameLen, level, strengthLen, headerLen, maxPayload]
  | unrecognized => cases h

theorem wf_unrecognized_iff {L : Layout} {why : Reason} {addr tag : Byte} {payload : List Byte} :
    (Instr.unrecognized why addr tag payload).wf L = true ↔
      payload.length ≤ maxPayload ∧ selectVariant L tag (headerLen + payload.length) = .error why := by
  rw [Instr.wf, Bool.and_eq_true, decide_eq_true_eq, and_congr_right_iff]
  intro _
  cases selectVariant L tag (headerLen + payload.length) <;> simp

/-- A record that the decoder of a variant reads is of that variant, and each field of the frame reads the operand. -/
theorem fieldValues_of_decodeVariant {L : Layout} (hL : L.Facts) {addr : Byte} {F : List Byte} {v : Variant} {i : Instr}
    (hlen : L.takesLength v F.length = true) (h : decodeVariant L addr F v = .ok i) :
    instrVariant i = some v ∧ i.addr = addr ∧ i.extra = F.drop (L.frameLen v) ∧
      ∀ p ∈ i.fieldValues L, p.1.get F = .ok p.2 := by
  cases v with
  | telemetry =>
    simp only [decodeVariant, decodeTelemetry, bind_eq_ok_iff] at h
    obtain ⟨o, ho, x, hx, y, hy, z, hz, vx, hvx, vy, hvy, vz, hvz, mv, hmv, bc, hbc, st, hst, pe, hpe, ⟨⟩⟩ := h
    have velocity := fun f hf v => Field.get_two_signed (F := F) (v := v) (hL.velocity f hf)
    have byte := fun f hf v => Field.get_one_unsigned (F := F) (v := v) (hL.bytes f hf)
    refine ⟨rfl, rfl, rfl, ?_⟩
    simp only [Instr.fieldValues, List.forall_mem_cons]
    exact ⟨ho, hx, hy, hz, velocity _ (by simp) _ hvx, velocity _ (by simp) _ hvy, velocity _ (by simp) _ hvz,
      Field.get_two_unsigned hL.voltage hmv, byte _ (by simp) _ hbc, byte _ (by simp) _ hst, byte _ (by simp) _ hpe, nofun⟩
  | sysStatus =>
    simp only [decodeVariant, decodeSysStatus, bind_eq_ok_iff] at h
    obtain ⟨ident, hident, cfg, hcfg, log, hlog, cap, hcap, size, hsize, ⟨⟩⟩ := h
    have hn : F.length = sysStatusLen := of_decide_eq_true hlen
    refine ⟨rfl, rfl, (List.drop_eq_nil_of_le hn.le).symm, ?_⟩
    simp only [Instr.fieldValues, List.forall_mem_cons]
    exact ⟨hident, hcfg, hlog, hcap, hsize, nofun⟩
  | info =>
    simp only [decodeVariant, decodeInfo, bind_eq_ok_iff] at h
    obtain ⟨hw, hhw, fwt, hfwt, fwv, hfwv, pmin, hpmin, pmaj, hpmaj, hash, hhash, cnt, hcnt, ⟨⟩⟩ := h
    refine ⟨rfl, rfl, rfl, ?_⟩
    simp only [Instr.fieldValues, List.forall_mem_cons]
    exact ⟨hhw, hfwt, hfwv, hpmin, hpmaj, hhash, Field.get_two_unsigned hL.commitCount hcnt, nofun⟩
  | rawAccel =>
    simp only [decodeVariant, decodeRawAccel, bind_eq_ok_iff] at h
    obtain ⟨x, hx, y, hy, z, hz, ⟨⟩⟩ := h
    have axis := fun f hf v => Field.get_two_signed (F := F) (v := v) (hL.rawAccel f hf)
    refine ⟨rfl, rfl, rfl, ?_⟩
    simp only [Instr.fieldValues, List.forall_mem_cons]
    exact ⟨axis _ (by simp [Layout.fields]) _ hx, axis _ (by simp [Layout.fields]) _ hy,
      axis _ (by simp [Layout.fields]) _ hz, nofun⟩
  | strength =>
    simp only [decodeVariant, decodeStrength, bind_eq_ok_iff] at h
    obtain ⟨l0, h0, l1, h1, l2, h2, l3, h3, ⟨⟩⟩ := h
    have level := fun f hf v => Field.get_two_signed (F := F) (v := v) (hL.levels f hf)
    have hn : F.length = strengthLen := of_decide_eq_true hlen
    refine ⟨rfl, rfl, (List.drop_eq_nil_of_le hn.le).symm, ?_⟩
    simp only [Instr.fieldValues, List.forall_mem_cons]
    exact ⟨level _ (by simp [Layout.fields]) _ h0, level _ (by simp [Layout.fields]) _ h1,
      level _ (by simp [Layout.fields]) _ h2, level _ (by simp [Layout.fields]) _ h3, nofun⟩

/-- A frame whose fields read the operands of a record is decoded to that record. -/
theorem decodeVariant_of_fieldValues {L : Layout} {F : List Byte} {v : Variant} {i : Instr} (hv : instrVariant i = some v)
    (he : i.extra = F.drop (L.frameLen v)) (h : ∀ p ∈ i.fieldValues L, p.1.get F = .ok p.2) :
    decodeVariant L i.addr F v = .ok i := by
  cases i with
  | telemetry =>
    cases hv
    simp only [Instr.fieldValues, List.forall_mem_cons] at h
    obtain rfl : _ = F.drop (L.minLen .telemetry) := he
    simp [decodeVariant, decodeTelemetry, bind_eq_ok_iff, h, Instr.addr, setWidth_signExtend_same]
  | sysStatus =>
    cases hv
    simp only [Instr.fieldValues, List.forall_mem_cons] at h
    simp [decodeVariant, decodeSysStatus, bind_eq_ok_iff, h, Instr.addr]
  | info =>
    cases hv
    simp only [Instr.fieldValues, List.forall_mem_cons] at h
    obtain rfl : _ = F.drop (L.minLen .info) := he
    simp [decodeVariant, decodeInfo, bind_eq_ok_iff, h, Instr.addr]
  | rawAccel =>
    cases hv
    simp only [Instr.fieldValues, List.forall_mem_cons] at h
    obtain rfl : _ = F.drop (L.minLen .rawAccel) := he
    simp [decodeVariant, decodeRawAccel, bind_eq_ok_iff, h, Instr.addr, setWidth_signExtend_same]
  | strength =>
    cases hv
    simp only [Instr.fieldValues, List.forall_mem_cons] at h
    simp [decodeVariant, decodeStrength, bind_eq_ok_iff, h, Instr.addr, setWidth_signExtend_same]
  | unrecognized => cases hv

end Sys2Proof

/-! ### Stored frames (spec 30_encoding.md R70, R72) -/

namespace Sys2Proof

open Sys2Proof.Machine

theorem Machine.StoredFrame.exists_cons {F : List Byte} (h : StoredFrame F) :
    ∃ n addr tag payload, F = startMarker :: n :: addr :: tag :: payload ∧ payload.length = n.toNat := by
  obtain ⟨h0, n, h1, hl⟩ := h
  match F, h0, h1, hl with
  | m :: n' :: addr :: tag :: payload, h0, h1, hl =>
    cases h0
    cases h1
    exact ⟨_, addr, tag, payload, rfl, by simpa using hl⟩

theorem Machine.StoredFrame.headerLen_le {F : List Byte} (h : StoredFrame F) : headerLen ≤ F.length := by
  obtain ⟨_, n, _, hl⟩ := h
  exact hl ▸ Nat.le_add_left _ _

theorem Machine.StoredFrame.length_le {F : List Byte} (h : StoredFrame F) : F.length ≤ headerLen + maxPayload := by
  obtain ⟨_, n, _, hl⟩ := h
  have := n.isLt
  simp only [headerLen, maxPayload]
  omega

theorem storedFrame_cons {n addr tag : Byte} {payload : List Byte} (h : payload.length = n.toNat) :
    StoredFrame (startMarker :: n :: addr :: tag :: payload) :=
  ⟨rfl, n, rfl, by simp [h]⟩

/-- `decode` is `decodeFrame` on the stored frames and reads nothing else (R70, R72, R131). -/
theorem decode_eq_ok_iff {L : Layout} {F : List Byte} {i : Instr} :
    decode L F = .ok i ↔ StoredFrame F ∧ decodeFrame L F = .ok i := by
  constructor
  · intro h
    unfold decode at h
    split at h
    · next m n addr tag payload =>
      split at h
      · cases h
      · next hm =>
        split at h
        · cases h
        · next hn =>
          obtain rfl : m = startMarker := not_not.1 hm
          exact ⟨storedFrame_cons (not_not.1 hn), h⟩
    · cases h
  · rintro ⟨hF, h⟩
    obtain ⟨n, addr, tag, payload, rfl, hn⟩ := hF.exists_cons
    simp [decode, hn, h]

theorem length_frame (m n addr tag : Byte) (payload : List Byte) :
    (m :: n :: addr :: tag :: payload).length = headerLen + payload.length := by
  simp only [List.length_cons, headerLen]
  omega

theorem decodeFrame_unrecognized {L : Layout} {tag : Byte} {payload : List Byte} {why : Reason}
    (h : selectVariant L tag (headerLen + payload.length) = .error why) (m n addr : Byte) :
    decodeFrame L (m :: n :: addr :: tag :: payload) = .ok (.unrecognized why addr tag payload) := by
  rw [decodeFrame, length_frame, h]

/-- The encoding of every well-formed instruction is a stored frame (R70, R72). -/
theorem storedFrame_encode {L : Layout} (hL : L.wf = true) {i : Instr} (hi : i.wf L = true) : StoredFrame (encode L i) := by
  cases i with
  | telemetry => exact Laws.EncodedSize.telemetry _ _ _ _ _ _ _ _ _ _ _ _ _ L hL hi
  | sysStatus => exact Laws.EncodedSize.sysStatus _ _ _ _ _ _ L hL hi
  | info => exact Laws.EncodedSize.info _ _ _ _ _ _ _ _ _ L hL hi
  | rawAccel => exact Laws.EncodedSize.rawAccel _ _ _ _ _ L hL hi
  | strength => exact Laws.EncodedSize.strength _ _ _ _ _ L hL hi
  | unrecognized => exact Laws.EncodedSize.unrecognized _ _ _ _ L hL hi

end Sys2Proof

/-! ### What the encoder writes, the decoder reads (spec 30_encoding.md R75, R89) -/

namespace Sys2Proof

open Sys2Proof.Machine

theorem byteAt_frameWith_two {fvs : List (Field × Word32)} (h : ∀ g ∈ fvs.map Prod.fst, headerLen ≤ g.offset)
    (tag addr : Byte) (len : Nat) (extra : List Byte) : byteAt (frameWith tag addr len fvs extra) 2 = addr := by
  obtain ⟨payload, hp⟩ := frameWith_header tag addr len fvs extra h
  rw [hp]; rfl

theorem byteAt_frameWith_three {fvs : List (Field × Word32)} (h : ∀ g ∈ fvs.map Prod.fst, headerLen ≤ g.offset)
    (tag addr : Byte) (len : Nat) (extra : List Byte) : byteAt (frameWith tag addr len fvs extra) 3 = tag := by
  obtain ⟨payload, hp⟩ := frameWith_header tag addr len fvs extra h
  rw [hp]; rfl

theorem drop_frameWith {len : Nat} (h : headerLen ≤ len) (tag addr : Byte) (fvs : List (Field × Word32))
    (extra : List Byte) : (frameWith tag addr len fvs extra).drop len = extra := by
  apply List.drop_left'
  rw [putFields_length]
  simp only [List.length_cons, List.length_replicate]
  simp only [headerLen] at h ⊢
  omega

/-- Every field of an encoded frame reads the value it was given. -/
theorem get_frameWith {fvs : List (Field × Word32)} (hok : Layout.fieldsOk (fvs.map Prod.fst) = true) {len : Nat}
    (hlen : headerLen ≤ len) {f : Field} {v : Word32} (hm : (f, v) ∈ fvs) (hn : f.next ≤ len) (hv : f.Holds v)
    (tag addr : Byte) (extra : List Byte) : f.get (frameWith tag addr len fvs extra) = .ok v := by
  have hl : ∀ n : Byte, (startMarker :: n :: addr :: tag :: List.replicate (len - headerLen) 0#8).length = len := by
    intro n
    simp only [List.length_cons, List.length_replicate]
    simp only [headerLen] at hlen ⊢
    omega
  rw [frameWith, Field.get_append _ _ _ (by rwa [putFields_length, hl]), Field.get_putFields hok hm (by rwa [hl]), hv]

theorem minLen_le_frameLen {L : Layout} (hL : L.Facts) (v : Variant) : L.minLen v ≤ L.frameLen v := by
  cases v with
  | sysStatus => exact hL.sysStatus
  | strength => exact hL.strength
  | _ => exact le_rfl

theorem headerLen_le_frameLen {L : Layout} (hL : L.wf = true) (v : Variant) : headerLen ≤ L.frameLen v := by
  have h := fun f hf => (Laws.EncodedSize.minLen_ge hL v (f := f) hf).trans (minLen_le_frameLen (Layout.facts hL) v)
  cases v <;> exact h _ List.mem_cons_self

theorem takesLength_frameLen (L : Layout) {i : Instr} {v : Variant} (h : instrVariant i = some v) :
    L.takesLength v (L.frameLen v + i.extra.length) = true := by
  cases i <;> cases h <;> simp [Layout.takesLength, Variant.gated, Instr.extra]

/-- A record is read back: dispatch finds its variant by tag and length, and each field reads the value put there. -/
theorem decode_encode_record {L : Layout} (hL : L.wf = true) {i : Instr} {v : Variant} (hv : instrVariant i = some v)
    (hi : i.wf L = true) : decode L (encode L i) = .ok i := by
  have hf := Layout.facts hL
  have hs := storedFrame_encode hL hi
  have h4 := headerLen_le_frameLen hL v
  have hok : Layout.fieldsOk ((i.fieldValues L).map Prod.fst) = true := by rw [fieldValues_map_fst hv]; exact hf.fields v
  have hoff := fun g hg => Layout.fieldsOk_offset hok (f := g) hg
  refine decode_eq_ok_iff.2 ⟨hs, ?_⟩
  have hl := hs.headerLen_le
  rw [encode_record hv] at hl ⊢
  rw [decodeFrame_of hl (v := v), byteAt_frameWith_two hoff]
  · refine decodeVariant_of_fieldValues hv (drop_frameWith h4 _ _ _ _).symm fun p hp => ?_
    refine get_frameWith hok h4 hp ?_ (((wf_record_iff hf hv).1 hi).1 p hp) _ _ _
    have hm : p.1 ∈ L.fields v := fieldValues_map_fst hv L ▸ List.mem_map_of_mem hp
    exact (L.next_le_minLen v hm).trans (minLen_le_frameLen hf v)
  · rw [byteAt_frameWith_three hoff, frameWith_length _ _ _ _ _ h4]
    exact selectVariant_eq_ok_iff.2 ⟨rfl, takesLength_frameLen L hv⟩

theorem decode_encode_unrecognized {L : Layout} {why : Reason} {addr tag : Byte} {payload : List Byte}
    (hi : (Instr.unrecognized why addr tag payload).wf L = true) :
    decode L (encode L (.unrecognized why addr tag payload)) = .ok (.unrecognized why addr tag payload) := by
  obtain ⟨hn, hw⟩ := wf_unrecognized_iff.1 hi
  refine decode_eq_ok_iff.2 ⟨storedFrame_cons ?_, decodeFrame_unrecognized hw _ _ _⟩
  simp only [maxPayload] at hn
  rw [BitVec.toNat_ofNat, Nat.mod_eq_of_lt (by omega)]

/-- Settles O45: a record is read back field by field, and UNRECOGNIZED as it stands. -/
theorem decodeOfEncodeIsTheInstruction : Obligations.DecodeOfEncodeIsTheInstruction := by
  intro L i hL hi
  cases hv : instrVariant i with
  | some v => exact decode_encode_record hL hv hi
  | none =>
    cases i with
    | unrecognized => exact decode_encode_unrecognized hi
    | _ => cases hv

end Sys2Proof

/-! ### What the decoder reads, the encoder writes (spec 30_encoding.md R76 to R80) -/

namespace Sys2Proof

open Sys2Proof.Machine

/-- The fields follow one another without a gap, from offset `a` to `b`. -/
def Layout.contiguous : Nat → List Field → Nat → Bool
  | a, [], b      => decide (a = b)
  | a, f :: fs, b => decide (f.offset = a) && Layout.contiguous f.next fs b

/-- The default layout has no gap (R76 to R80). -/
theorem contiguous_default (v : Variant) :
    Layout.contiguous headerLen (Layout.default.fields v) (Layout.default.frameLen v) = true := by
  cases v <;> decide

theorem Layout.contiguous_le {a b : Nat} {fs : List Field} (h : Layout.contiguous a fs b = true) : a ≤ b := by
  induction fs generalizing a with
  | nil => exact (of_decide_eq_true h).le
  | cons f fs ih =>
    rw [Layout.contiguous, Bool.and_eq_true, decide_eq_true_eq] at h
    obtain ⟨rfl, h⟩ := h
    exact (Nat.le_add_right _ _).trans (ih h)

theorem bytesLE_mod (n w : Nat) : bytesLE n (w % 256 ^ n) = bytesLE n w := by
  induction n generalizing w with
  | zero => rfl
  | succ n ih =>
    have hb : BitVec.ofNat 8 (w % 256 ^ (n + 1)) = BitVec.ofNat 8 w := by
      apply BitVec.eq_of_toNat_eq
      rw [BitVec.toNat_ofNat, BitVec.toNat_ofNat, Nat.pow_succ']
      exact Nat.mod_mul_right_mod _ _ _
    rw [bytesLE, bytesLE, hb, Nat.pow_succ', Nat.mod_mul_right_div_self, ih]

theorem bytesLE_of_frameRead {F : List Byte} {a n x : Nat} (h : frameRead F a n = some x) :
    bytesLE n x = (F.drop a).take n := by
  induction n generalizing a x with
  | zero => rfl
  | succ n ih =>
    rw [frameRead] at h
    split at h
    · next b hi hb hhi =>
      cases h
      have hlt := b.isLt
      have hbyte : BitVec.ofNat 8 (b.toNat + 256 * hi) = b := BitVec.eq_of_toNat_eq (by rw [BitVec.toNat_ofNat]; omega)
      obtain ⟨ha, rfl⟩ := List.getElem?_eq_some_iff.1 hb
      rw [bytesLE, hbyte, List.drop_eq_getElem_cons ha, List.take_succ_cons, ← ih hhi]
      congr 2
      omega
    · cases h

/-- A field's value, written out, is the field's bytes. -/
theorem Field.bytesLE_of_get {f : Field} {F : List Byte} {v : Word32} (h : f.get F = .ok v) :
    bytesLE f.width.bytes v.toNat = (F.drop f.offset).take f.width.bytes := by
  obtain ⟨x, hx, rfl⟩ := Field.get_eq_ok_iff.1 h
  rw [← bytesLE_of_frameRead hx, ← bytesLE_mod, f.extend_toNat_mod (frameRead_lt hx)]

theorem putBytes_append (P Z bs : List Byte) (h : bs.length ≤ Z.length) :
    putBytes (P ++ Z) P.length bs = P ++ bs ++ Z.drop bs.length := by
  induction bs generalizing P Z with
  | nil => simp [putBytes]
  | cons b bs ih =>
    cases Z with
    | nil => simp at h
    | cons z Z =>
      have := ih (P ++ [b]) Z (by simpa using h)
      simpa [putBytes] using this

/-- Putting what a field of `F` reads behind the first bytes of `F` adds the field's bytes to them. -/
theorem Field.put_take_append {f : Field} {F : List Byte} {v : Word32} (h : f.get F = .ok v) (hn : f.next ≤ F.length)
    {Z : List Byte} (hZ : f.width.bytes ≤ Z.length) :
    f.put v (F.take f.offset ++ Z) = F.take f.next ++ Z.drop f.width.bytes := by
  have hlen : (F.take f.offset).length = f.offset := by
    rw [List.length_take, Nat.min_eq_left ((Nat.le_add_right _ _).trans hn)]
  have hput := putBytes_append (F.take f.offset) Z (bytesLE f.width.bytes v.toNat) (by rwa [bytesLE_length])
  rw [hlen, bytesLE_length] at hput
  rw [Field.put, hput, Field.bytesLE_of_get h, Field.next, List.take_add]

/-- Fields without a gap between them, put one after another, write the bytes of the frame they were read from. -/
theorem putFields_of_contiguous {fvs : List (Field × Word32)} {F Z : List Byte} {a b : Nat}
    (hc : Layout.contiguous a (fvs.map Prod.fst) b = true) (hb : b ≤ F.length) (hZ : Z.length = b - a)
    (hg : ∀ p ∈ fvs, p.1.get F = .ok p.2) : putFields fvs (F.take a ++ Z) = F.take b := by
  induction fvs generalizing a Z with
  | nil =>
    obtain rfl : a = b := of_decide_eq_true hc
    obtain rfl : Z = [] := List.eq_nil_of_length_eq_zero (by omega)
    simp [putFields]
  | cons p fvs ih =>
    obtain ⟨f, v⟩ := p
    rw [List.map_cons, Layout.contiguous, Bool.and_eq_true, decide_eq_true_eq] at hc
    obtain ⟨rfl, hc⟩ := hc
    rw [List.forall_mem_cons] at hg
    have hle : f.offset + f.width.bytes ≤ b := Layout.contiguous_le hc
    have hZ' : Z.length = b - f.offset := hZ
    have hw : f.width.bytes ≤ Z.length := by omega
    rw [putFields, Field.put_take_append hg.1 (hle.trans hb) hw]
    refine ih hc ?_ hg.2
    rw [List.length_drop, hZ']
    exact Nat.sub_sub _ _ _

/-- The encoder makes a stored frame again from its tag, its address, its fields and what stands behind them. -/
theorem frameWith_of_contiguous {F : List Byte} (hF : StoredFrame F) {fvs : List (Field × Word32)} {len : Nat}
    (hc : Layout.contiguous headerLen (fvs.map Prod.fst) len = true) (hlen : len ≤ F.length)
    (hg : ∀ p ∈ fvs, p.1.get F = .ok p.2) :
    frameWith (byteAt F 3) (byteAt F 2) len fvs (F.drop len) = F := by
  have hput := putFields_of_contiguous hc (Z := List.replicate (len - headerLen) 0#8) hlen List.length_replicate hg
  have h4 := Layout.contiguous_le hc
  obtain ⟨n, addr, tag, payload, rfl, hp⟩ := hF.exists_cons
  rw [length_frame] at hlen
  have hn : BitVec.ofNat 8 (len - headerLen + ((startMarker :: n :: addr :: tag :: payload).drop len).length) = n := by
    rw [List.length_drop, length_frame, show len - headerLen + (headerLen + payload.length - len) = n.toNat by omega]
    exact BitVec.ofNat_toNat _ _
  rw [frameWith, hn]
  exact (congrArg (· ++ _) hput).trans (List.take_append_drop _ _)

theorem frameLen_le_of_takesLength {L : Layout} {v : Variant} {len : Nat} (h : L.takesLength v len = true) :
    L.frameLen v ≤ len := by
  unfold Layout.takesLength at h
  split at h
  · exact (of_decide_eq_true h).ge
  · exact of_decide_eq_true h

/-- A record read from a stored frame, under a layout without gaps, is well-formed and encodes to the frame. -/
theorem encode_of_decodeVariant {L : Layout} (hL : L.Facts) {F : List Byte} (hF : StoredFrame F) {v : Variant}
    (hc : Layout.contiguous headerLen (L.fields v) (L.frameLen v) = true) {i : Instr}
    (hv : selectVariant L (byteAt F 3) F.length = .ok v) (h : decodeVariant L (byteAt F 2) F v = .ok i) :
    i.wf L = true ∧ encode L i = F := by
  obtain ⟨ht, hlen⟩ := selectVariant_eq_ok_iff.1 hv
  obtain ⟨hi, ha, he, hg⟩ := fieldValues_of_decodeVariant hL hlen h
  have hle := frameLen_le_of_takesLength hlen
  constructor
  · refine (wf_record_iff hL hi).2 ⟨fun p hm => Field.holds_of_get (hg p hm), ?_⟩
    rw [he, List.length_drop, Nat.add_sub_cancel' hle]
    exact hF.length_le
  · rw [encode_record hi, he, ha, ← ht]
    rw [← fieldValues_map_fst hi] at hc
    exact frameWith_of_contiguous hF hc hle hg

/-- A frame that no variant takes is its own encoding, under every layout. -/
theorem encode_of_selectVariant_error {L : Layout} {F : List Byte} (hF : StoredFrame F) {why : Reason} {i : Instr}
    (hv : selectVariant L (byteAt F 3) F.length = .error why) (h : decodeFrame L F = .ok i) :
    i.wf L = true ∧ encode L i = F := by
  have hmax := hF.length_le
  obtain ⟨n, addr, tag, payload, rfl, hp⟩ := hF.exists_cons
  rw [length_frame] at hv hmax
  rw [decodeFrame_unrecognized (tag := tag) hv] at h
  cases h
  refine ⟨wf_unrecognized_iff.2 ⟨Nat.le_of_add_le_add_left hmax, hv⟩, ?_⟩
  rw [encode, hp, BitVec.ofNat_toNat, BitVec.setWidth_eq]

/-- Settles O46, on each side of the dispatch. -/
theorem encodeOfDecodeIsTheFrame : Obligations.EncodeOfDecodeIsTheFrame := by
  intro F i h
  obtain ⟨hF, hd⟩ := decode_eq_ok_iff.1 h
  cases hv : selectVariant Layout.default (byteAt F 3) F.length with
  | ok v =>
    rw [decodeFrame_of hF.headerLen_le hv] at hd
    exact encode_of_decodeVariant (Layout.facts Layout.default_wf) hF (contiguous_default v) hv hd
  | error why => exact encode_of_selectVariant_error hF hv hd

end Sys2Proof

/-! ### A stored frame fed from SEEK (spec 41_framesync.md R110 to R114, R120) -/

namespace Sys2Proof.Machine

theorem feed_append (as bs : List Byte) (s : State) : feed (as ++ bs) s = andThen (feed as s) (feed bs) := by
  induction as generalizing s with
  | nil => rfl
  | cons a as ih =>
    rw [List.cons_append, feed_cons, feed_cons]
    cases stepByte a s with
    | next t => exact ih t
    | fault r => rfl
    | refused r => rfl

theorem feed_append_next {as : List Byte} {s t : State} (h : feed as s = .next t) (bs : List Byte) :
    feed (as ++ bs) s = feed bs t := by
  rw [feed_append, h]
  rfl

theorem stepByte_seek_marker {s : State} (h : ReadyInSeek s) :
    stepByte startMarker s = .next (s.seek startMarker) := by
  rw [stepByte_of_byteStep (.seek h.running h.seek), State.commit_nil_of_sched (by simp [h.alone])]

theorem stepByte_size {s : State} (hi : s.idx = 1) (hr : s.stopped = false) (hs : s.sched = []) (b : Byte) :
    stepByte b s = .next (s.size b) := by
  rw [stepByte_of_byteStep (.size hr hi), State.commit_nil_of_sched (s := s.size b) hs]

theorem stepByte_fill {s : State} (h2 : 2 ≤ s.idx.toNat) (hlt : s.idx.toNat < s.expectedSize.toNat)
    (he : s.expectedSize.toNat ≤ 259) (hr : s.stopped = false) (hs : s.sched = []) (b : Byte) :
    stepByte b s = .next (s.fill b) := by
  have hc : s.idx.toNat < bufCapacity := by simp only [bufCapacity]; omega
  rw [stepByte_of_byteStep (.fill hr h2 hlt hc), State.commit_nil_of_sched (s := s.fill b) hs]

/-- Adding to the cursor what fits its nine bits. -/
theorem cursor_add_ofNat {x : Cursor} {k m : Nat} (h : x.toNat + k = m) : x + BitVec.ofNat 9 k = BitVec.ofNat 9 m := by
  rw [← h, BitVec.ofNat_add, BitVec.ofNat_toNat, BitVec.setWidth_eq]

theorem State.fill_idx_toNat {s : State} (h : s.idx.toNat < 511) (b : Byte) : (s.fill b).idx.toNat = s.idx.toNat + 1 := by
  have h1 : (1 : Cursor).toNat = 1 := rfl
  rw [State.fill_idx, BitVec.toNat_add, h1]
  omega

/-- One FILL step and a batch behind it are one batch. -/
theorem State.fillBatch_fill {s : State} (h : s.idx.toNat < 511) (b : Byte) (bs : List Byte) :
    (s.fill b).fillBatch bs = s.fillBatch (b :: bs) := by
  have hidx : (s.fill b).idx + BitVec.ofNat 9 bs.length = s.idx + BitVec.ofNat 9 (b :: bs).length := by
    rw [State.fill_idx, List.length_cons, Nat.add_comm, BitVec.ofNat_add, BitVec.add_assoc]
    rfl
  rw [State.fillBatch, hidx, State.fill_idx_toNat h]
  rfl

/-- Copying the bytes at once is as many FILL steps (R120), by induction on the bytes. -/
theorem feed_eq_fillBatch {s : State} {bs : List Byte} (hr : s.stopped = false) (hs : s.sched = [])
    (h2 : 2 ≤ s.idx.toNat) (hle : s.idx.toNat + bs.length ≤ s.expectedSize.toNat) (he : s.expectedSize.toNat ≤ 259) :
    feed bs s = .next (s.fillBatch bs) := by
  induction bs generalizing s with
  | nil => simp [State.fillBatch, Memory.writeAll]
  | cons b bs ih =>
    rw [List.length_cons] at hle
    have hlt : s.idx.toNat < 511 := by omega
    have hi : (s.fill b).idx.toNat = s.idx.toNat + 1 := State.fill_idx_toNat hlt b
    rw [feed_cons_next (stepByte_fill h2 (by omega) he hr hs b), ← State.fillBatch_fill hlt]
    exact ih hr hs (by omega) (by rw [hi, State.fill_expectedSize]; omega) he

/-- The candidate `F` complete in the buffer. -/
def State.filled (s : State) (F : List Byte) : State :=
  { s with buf := s.buf.writeAll 0 F, expectedSize := BitVec.ofNat 9 F.length, idx := BitVec.ofNat 9 F.length }

/-- From SEEK, the bytes of a stored frame become the candidate: one SEEK step, one SIZE step, FILL for the rest. -/
theorem feed_storedFrame {s : State} (h : ReadyInSeek s) {F : List Byte} (hF : StoredFrame F) :
    feed F s = .next (s.filled F) := by
  obtain ⟨n, addr, tag, payload, rfl, hp⟩ := hF.exists_cons
  have hn := n.isLt
  have he : ((s.seek startMarker).size n).expectedSize.toNat = n.toNat + 4 := expectedSize_toNat n
  have h2 : ((s.seek startMarker).size n).idx.toNat = 2 := rfl
  have hlen : (addr :: tag :: payload).length = n.toNat + 2 := by simp [hp]
  rw [feed_cons_next (stepByte_seek_marker h),
    feed_cons_next (stepByte_size (by rw [s.seek_marker]) (by simp [h.running]) (by simp [h.alone]) n),
    feed_eq_fillBatch (by simp [h.running]) (by simp [h.alone]) h2.ge (by omega) (by omega)]
  have hF4 : (startMarker :: n :: addr :: tag :: payload).length = n.toNat + 4 := by simp [hp]
  have hidx : ((s.seek startMarker).size n).idx + BitVec.ofNat 9 (addr :: tag :: payload).length =
      BitVec.ofNat 9 (n.toNat + 4) := cursor_add_ofNat (by omega)
  have hexp : ((s.seek startMarker).size n).expectedSize = BitVec.ofNat 9 (n.toNat + 4) := by
    rw [← he, BitVec.ofNat_toNat, BitVec.setWidth_eq]
  rw [State.fillBatch, State.filled, hF4, hidx, ← hexp, s.seek_marker]
  rfl

/-- A stored frame with its CRC byte behind it runs the decoded instruction (R114). -/
theorem feed_wireFrame {s : State} (h : ReadyInSeek s) {F : List Byte} (hF : StoredFrame F) {i : Instr}
    (hd : decodeFrame s.params.layout F = .ok i) :
    feed (wireFrame s.params.crc8Table F) s = exec i ((s.filled F).handed F) := by
  have h4 := hF.headerLen_le
  have hmax := hF.length_le
  simp only [headerLen, maxPayload] at h4 hmax
  have hn : (BitVec.ofNat 9 F.length).toNat = F.length := by rw [BitVec.toNat_ofNat]; omega
  have he : (s.filled F).expectedSize.toNat = F.length := hn
  have hi : (s.filled F).idx.toNat = F.length := hn
  have hslice : (s.filled F).buf.slice 0 (s.filled F).expectedSize.toNat = some F := by
    rw [he]; exact s.buf.slice_writeAll F
  have haddr : (s.filled F).buf.read 2 = some F[2] :=
    (((Memory.slice_eq_some _ _ _ _).1 hslice).2 2 (by omega)).trans (List.getElem?_eq_getElem (by omega))
  have hr : (s.filled F).stopped = false := h.running
  have hcheck : ByteStep (crc8 s.params.crc8Table (F.drop 1)) (s.filled F) (execState i ((s.filled F).handed F)) :=
    .accept hr (by omega) (by omega) F hslice F[2] haddr rfl i hd
  rw [wireFrame, feed_append_next (feed_storedFrame h hF), exec_eq]
  exact feed_cons_next (stepByte_of_byteStep hcheck)

/-- Settles O48: the encoding is a stored frame that decodes to the instruction (O45), so its wire bytes run it. -/
theorem wireBytesOfAnInstructionRunIt : Obligations.WireBytesOfAnInstructionRunIt := by
  intro s i h hL hi
  obtain ⟨hF, hd⟩ := decode_eq_ok_iff.1 (decodeOfEncodeIsTheInstruction _ i hL hi)
  exact ⟨(s.filled _).handed _, feed_wireFrame h hF hd, rfl, s.buf.slice_writeAll _, rfl, rfl, rfl, h.running, rfl, rfl, rfl,
    h.alone⟩

end Sys2Proof.Machine

/-! ### The CRC, byte by byte (spec 40_crc8.md R100, R102) -/

namespace Sys2Proof.Machine

/-- R100: a byte of the CRC is the table entry at the running value xor the byte. -/
theorem crcByte_eq_get (T : Vector Byte 256) (crc b : Byte) : crcByte T crc b = T.get (crc ^^^ b).toFin := rfl

/-- What follows a prefix sees of it only the running value. -/
theorem crc8_append_congr {T : Vector Byte 256} {s s' : List Byte} (h : crc8 T s' = crc8 T s) (t : List Byte) :
    crc8 T (s' ++ t) = crc8 T (s ++ t) := by
  rw [crc8_append, crc8_append, h]

/-- Settles O50: the CRC is a left fold, so it starts at 0, takes one lookup per byte, and goes on from the running value. -/
theorem crcIsComputedByteByByte : Obligations.CrcIsComputedByteByByte := fun T s t b =>
  ⟨crc8_nil T, (crc8_concat T s b).trans (crcByte_eq_get T _ b), fun _ h => crc8_append_congr h t⟩

end Sys2Proof.Machine

/-! ### The synchronizer, one rule at a time (spec 41_framesync.md R111 to R115, R121) -/

namespace Sys2Proof.Machine

/-- Settles O3: SYNC_RESTART is one of the cases of a step. -/
theorem syncRestartWritesOnlyTheCursor : Obligations.SyncRestartWritesOnlyTheCursor :=
  fun _ rest hi => step_iff.2 (.syncRestart rest hi)

/-- The step of an offered byte is the synchronizer's. -/
theorem step_of_byteStep {s t : State} {b : Byte} {during : List SchedItem} {rest : List Input}
    (hi : s.inputs = .byte b during :: rest) (h : ByteStep b (s.offered during rest) t) : step s = .next t :=
  step_iff.2 (.byte b during rest hi t h)

/-- Settles O12: SEEK opens a candidate on the marker and is the identity on every other byte. -/
theorem seekTakesTheMarkerAndDropsTheRest : Obligations.SeekTakesTheMarkerAndDropsTheRest := by
  intro s b during rest hr h0 hi
  refine ⟨_, step_of_byteStep hi (.seek hr h0), fun hb => ?_, fun hb => ?_, by simp, fun n => by simp,
    by simp [State.commit_fresh], by simp [hr], by simp, by simp, by simp⟩
  · obtain rfl : b = startMarker := hb
    rw [State.commit_idx, State.commit_buf, State.seek_marker]
    exact ⟨rfl, Memory.read_write_same _ _ _, fun a ha => Memory.read_write_of_ne _ _ ha⟩
  · rw [State.commit_idx, State.commit_buf, State.seek_of_ne _ hb]
    exact ⟨h0, fun _ => rfl⟩

/-- Settles O13: the size byte goes to index 1, and N + 4 fits the nine bits of `expected_size`. -/
theorem sizeSetsTheExpectedSize : Obligations.SizeSetsTheExpectedSize := by
  intro s b during rest hr h1 hi
  have he : ((((s.offered during rest).size b).commit []).expectedSize).toNat = b.toNat + 4 := by
    rw [State.commit_expectedSize]; exact expectedSize_toNat b
  have h2 : (((s.offered during rest).size b).commit []).idx.toNat = 2 := by rw [State.commit_idx]; rfl
  exact ⟨_, step_of_byteStep hi (.size hr h1), by simp, he, by simp [Memory.read_write_same],
    fun a ha => by simp [Memory.read_write_of_ne _ _ ha], State.phase_fill h2.ge (by omega), fun n => by simp,
    by simp [State.commit_fresh], by simp [hr], by simp, by simp, by simp⟩

/-- Settles O14: FILL stores at the cursor, which below `expected_size` does not wrap, and the phase follows from the two. -/
theorem fillStoresTheByteAndAdvances : Obligations.FillStoresTheByteAndAdvances := by
  intro s b during rest hr h2 hlt he hi
  have hidx : (((s.offered during rest).fill b).commit []).idx.toNat = s.idx.toNat + 1 := by
    rw [State.commit_idx]; exact State.fill_idx_toNat (s := s.offered during rest) (by simp; omega) b
  have hexp : (((s.offered during rest).fill b).commit []).expectedSize = s.expectedSize := by simp
  have hphase : (((s.offered during rest).fill b).commit []).phase =
      if s.idx.toNat + 1 = s.expectedSize.toNat then .check else .fill := by
    split
    · exact State.phase_check (by omega) (by rw [hexp]; omega)
    · exact State.phase_fill (by omega) (by rw [hexp]; omega)
  exact ⟨_, step_of_byteStep hi (.fill hr h2 hlt (by simp [bufCapacity]; omega)), hidx, by simp [Memory.read_write_same],
    fun a ha => by simp [Memory.read_write_of_ne _ _ ha], hexp, hphase, fun n => by simp,
    by simp [State.commit_fresh], by simp [hr], by simp, by simp, by simp⟩

/-- The address byte of a candidate with a header is in the buffer. -/
theorem read_two_of_slice {m : Memory} {n : Nat} {F : List Byte} (h : m.slice 0 n = some F) (hn : headerLen ≤ n) :
    m.read 2 = some (byteAt F 2) := by
  obtain ⟨hl, hr⟩ := (Memory.slice_eq_some m 0 n F).1 h
  simp only [headerLen] at hn
  have h2 : F[2]? = some F[2] := List.getElem?_eq_getElem (by omega)
  rw [show (2 : Nat) = 0 + 2 from rfl, hr 2 (by omega), byteAt, List.getD_eq_getElem?_getD, h2]
  rfl

/-- CHECK accepts a complete candidate that decodes (R114). -/
theorem byteStep_accept {s : State} {F : List Byte} {i : Instr} (hr : s.stopped = false) (hc : s.idx = s.expectedSize)
    (hF : s.buf.slice 0 s.expectedSize.toNat = some F) (hd : decodeFrame s.params.layout F = .ok i) :
    ByteStep (crc8 s.params.crc8Table (F.drop 1)) s (execState i (s.handed F)) := by
  have h4 := headerLen_le_of_decodeFrame hd
  rw [((Memory.slice_eq_some _ _ _ _).1 hF).1, ← hc] at h4
  exact .accept hr (h4.trans' (by decide)) (by rw [hc]) F hF _ (read_two_of_slice hF (hc ▸ h4)) rfl i hd

/-- CHECK rejects a complete candidate on every other byte (R115). -/
theorem byteStep_reject {s : State} {F : List Byte} {b : Byte} (hr : s.stopped = false) (hc : s.idx = s.expectedSize)
    (h4 : headerLen ≤ s.expectedSize.toNat) (hF : s.buf.slice 0 s.expectedSize.toNat = some F)
    (hb : b ≠ crc8 s.params.crc8Table (F.drop 1)) : ByteStep b s ((s.reject (byteAt F 2)).commit []) :=
  .reject hr (hc ▸ h4.trans' (by decide)) (by rw [hc]) F hF _ (read_two_of_slice hF h4) hb

/-- Settles O15: the frame decodes, so it has a header, and CHECK accepts it. -/
theorem checkPassRunsTheDecodedFrame : Obligations.CheckPassRunsTheDecodedFrame := by
  intro s F during rest i ⟨hr, _, hc, hF, hi⟩ hd
  rw [exec_eq]
  exact step_of_byteStep hi (byteStep_accept (s := s.offered during rest) hr hc hF hd)

/-- Settles O16: CHECK rejects, which clears the cursor and raises the diagnostic. -/
theorem checkFailDropsTheFrame : Obligations.CheckFailDropsTheFrame := by
  intro s b F during rest hr hc h4 hF hb hi
  exact ⟨_, step_of_byteStep hi (byteStep_reject (s := s.offered during rest) hr hc h4 hF hb), by simp, by simp, by simp,
    by simp, fun n => by simp, by simp [State.commit_fresh], by simp [hr], by simp, by simp⟩

/-! ### A stored frame placed in the buffer is about to be emitted -/

/-- The length of a stored frame fits the nine bits of the cursor (R20, R72). -/
theorem length_toNat_ofNat {F : List Byte} (hF : StoredFrame F) : (BitVec.ofNat 9 F.length).toNat = F.length := by
  have := hF.length_le
  simp only [headerLen, maxPayload] at this
  rw [BitVec.toNat_ofNat]
  omega

theorem aboutToEmit_placeFrame (s : State) (T : Vector Byte 256) (L : Layout) {F : List Byte} (hF : StoredFrame F) :
    AboutToEmit (s.placeFrame T L F) F [] s.inputs where
  running := rfl
  cursor := by
    have := hF.headerLen_le
    simp only [headerLen] at this
    exact (length_toNat_ofNat hF).ge.trans' (by omega)
  complete := rfl
  stored := by
    show Memory.slice (s.buf.writeAll 0 F) 0 (BitVec.ofNat 9 F.length).toNat = some F
    rw [length_toNat_ofNat hF]
    exact s.buf.slice_writeAll F
  input := rfl

theorem decodeTableWord_eq_some_iff {nbits w : Nat} {i : Instr} :
    decodeTableWord nbits w = some i ↔ decode Layout.default (tableBytes nbits w) = .ok i := by
  unfold decodeTableWord
  split <;> simp [*]

/-- Settles O49: the word's bytes are a stored frame, so the placed frame is one that CHECK runs (O15). -/
theorem nextStepRunsThePlacedWord : Obligations.NextStepRunsThePlacedWord := by
  intro s nbits w i h
  obtain ⟨hF, hd⟩ := decode_eq_ok_iff.1 (decodeTableWord_eq_some_iff.1 h)
  exact checkPassRunsTheDecodedFrame _ _ _ _ i (aboutToEmit_placeFrame s t07 Layout.default hF) hd

end Sys2Proof.Machine

/-! ### Chunks (spec 41_framesync.md R118 to R120, 43_store_host.md R174) -/

namespace Sys2Proof.Machine

/-- Settles O19, from the induction on the first chunk (`feed_append`). -/
theorem chunkingIsNotObservable : Obligations.ChunkingIsNotObservable := feed_append

/-- Settles O20, from the induction on the bytes (`feed_eq_fillBatch`). -/
theorem batchedFillIsRepeatedFill : Obligations.BatchedFillIsRepeatedFill :=
  fun _ _ hr hs h2 hle he => feed_eq_fillBatch hr hs h2 hle he

end Sys2Proof.Machine

/-! ### Bytes in the queue and bytes fed (spec 41_framesync.md R118, 43_store_host.md R174) -/

namespace Sys2Proof.Machine

/-- The state with another queue and other outputs: all that a byte's step does not read. -/
def State.dressed (s : State) (q : List Input) (es : List Event) (rs : List Reply) : State :=
  { s with inputs := q, events := es, replies := rs }

theorem State.consume_dressed (s : State) (op : ConsumerOp) (q : List Input) (es : List Event) (rs : List Reply) :
    (s.dressed q es rs).consume op = (s.consume op).dressed q es (rs ++ [s.answer op]) := by
  cases op <;> rfl

/-- An interleaving reads neither the queue nor the outputs, by induction on its items. -/
theorem exists_runSchedule_dressed (items : List SchedItem) (ws : List SlotWrite) (s : State) (q : List Input)
    (es : List Event) (rs : List Reply) :
    ∃ rs', runSchedule items ws (s.dressed q es rs) = (runSchedule items ws s).dressed q es rs' := by
  induction items generalizing ws s rs with
  | nil => exact ⟨rs, rfl⟩
  | cons i items ih =>
    cases i with
    | consumer op => rw [runSchedule, State.consume_dressed]; exact ih ws _ _
    | write k =>
      cases hk : ws[k]? with
      | none => rw [runSchedule_write_none hk, runSchedule_write_none hk]; exact ih ws s rs
      | some w => rw [runSchedule_write_some hk, runSchedule_write_some hk]; exact ih _ (s.writeSlot w) rs

theorem State.exists_commit_dressed (s : State) (ws : List SlotWrite) (q : List Input) (es : List Event) (rs : List Reply) :
    ∃ rs', (s.dressed q es rs).commit ws = (s.commit ws).dressed q es rs' := by
  obtain ⟨rs', h⟩ := exists_runSchedule_dressed s.sched ws s q es rs
  exact ⟨rs', congrArg (fun u : State => { u with sched := [] }) h⟩

theorem exists_execState_dressed (i : Instr) (s : State) (q : List Input) (es : List Event) (rs : List Reply) :
    ∃ es' rs', execState i (s.dressed q es rs) = (execState i s).dressed q es' rs' := by
  obtain ⟨rs', h⟩ := s.exists_commit_dressed (instrWrites i) q es rs
  refine ⟨es ++ [instrEvent i], rs', ?_⟩
  unfold execState
  split <;> rw [h] <;> rfl

theorem State.seek_dressed (s : State) (b : Byte) (q : List Input) (es : List Event) (rs : List Reply) :
    (s.dressed q es rs).seek b = (s.seek b).dressed q es rs := by
  unfold State.seek
  split <;> rfl

/-- A byte's step reads neither the queue nor the outputs of the step before. -/
theorem ByteStep.exists_dressed {b : Byte} {s t : State} (h : ByteStep b s t) (q : List Input) (es : List Event)
    (rs : List Reply) : ∃ es' rs', ByteStep b (s.dressed q es rs) (t.dressed q es' rs') := by
  cases h with
  | stopped h =>
    obtain ⟨rs', e⟩ := s.exists_commit_dressed [] q es rs
    exact ⟨es, rs', e ▸ .stopped h⟩
  | seek hr h =>
    obtain ⟨rs', e⟩ := (s.seek b).exists_commit_dressed [] q es rs
    exact ⟨es, rs', e ▸ s.seek_dressed b q es rs ▸ .seek hr h⟩
  | size hr h =>
    obtain ⟨rs', e⟩ := (s.size b).exists_commit_dressed [] q es rs
    exact ⟨es, rs', e ▸ .size hr h⟩
  | fill hr h2 h hc =>
    obtain ⟨rs', e⟩ := (s.fill b).exists_commit_dressed [] q es rs
    exact ⟨es, rs', e ▸ .fill hr h2 h hc⟩
  | reject hr h2 h F hF addr ha hb =>
    obtain ⟨rs', e⟩ := (s.reject addr).exists_commit_dressed [] q (es ++ [.crcMismatch addr s.expectedSize]) rs
    exact ⟨es ++ [.crcMismatch addr s.expectedSize], rs', e ▸ .reject (s := s.dressed q es rs) hr h2 h F hF addr ha hb⟩
  | accept hr h2 h F hF addr ha hb i hi =>
    obtain ⟨es', rs', e⟩ := exists_execState_dressed i (s.handed F) q (es ++ [.frame F]) rs
    exact ⟨es', rs', e ▸ .accept (s := s.dressed q es rs) hr h2 h F hF addr ha hb i hi⟩

/-- A byte's step uses its interleaving up. -/
theorem ByteStep.sched_eq_nil {b : Byte} {s t : State} (h : ByteStep b s t) : t.sched = [] := by
  cases h with
  | accept => exact execState_sched _ _
  | _ => rfl

/-- A fed chunk that ends in a next state is its first byte's step and the rest fed behind it. -/
theorem exists_byteStep_of_feed_cons {b : Byte} {bs : List Byte} {s t : State} (h : feed (b :: bs) s = .next t) :
    ∃ u, ByteStep b s u ∧ feed bs u = .next t := by
  rw [feed_cons] at h
  cases hb : stepByte b s with
  | next u => rw [hb] at h; exact ⟨u, stepByte_iff.1 hb, h⟩
  | fault r => rw [hb] at h; cases h
  | refused r => rw [hb] at h; cases h

theorem inputs_of_feed {bs : List Byte} {s t : State} (h : feed bs s = .next t) : t.inputs = s.inputs := by
  induction bs generalizing s with
  | nil => cases h; rfl
  | cons b bs ih =>
    obtain ⟨u, hb, hu⟩ := exists_byteStep_of_feed_cons h
    rw [ih hu, hb.inputs_eq]

/-- The run over the queued bytes keeps up with the feed of the chunk, by induction on the bytes: each step is the feed's step
with another queue and other outputs. -/
theorem exists_run_dressed_of_feed {bs : List Byte} {s t : State} (hs : s.sched = []) (h : feed bs s = .next t)
    (rest : List Input) (es : List Event) (rs : List Reply) :
    ∃ es' rs', Sys2Proof.core.run bs.length (s.dressed (bs.map (fun b => .byte b []) ++ rest) es rs) =
      .next (t.dressed rest es' rs') := by
  induction bs generalizing s es rs with
  | nil => cases h; exact ⟨es, rs, rfl⟩
  | cons b bs ih =>
    obtain ⟨u, hb, hu⟩ := exists_byteStep_of_feed_cons h
    obtain ⟨es', rs', hd⟩ := hb.exists_dressed (bs.map (fun b => .byte b []) ++ rest) [] []
    have hoff : (s.dressed ((b :: bs).map (fun b => .byte b []) ++ rest) es rs).offered []
        (bs.map (fun b => .byte b []) ++ rest) = s.dressed (bs.map (fun b => .byte b []) ++ rest) [] [] := by
      rw [← hs]; rfl
    rw [List.length_cons, core_run_succ (step_of_byteStep rfl (hoff ▸ hd))]
    exact ih hb.sched_eq_nil hu es' rs'

/-- Settles O21, from the induction on the bytes (`exists_run_dressed_of_feed`). -/
theorem queuedBytesAreTheFedChunk : Obligations.QueuedBytesAreTheFedChunk := by
  intro bs rest s t hs hi h
  obtain ⟨es, rs, hrun⟩ := exists_run_dressed_of_feed (s := { s with inputs := rest }) hs h rest s.events s.replies
  rw [← hi] at hrun
  refine ⟨_, hrun, ?_⟩
  have ht : t.inputs = rest := inputs_of_feed h
  rw [← ht]
  rfl

end Sys2Proof.Machine

/-! ### Resynchronisation (spec 41_framesync.md R122, R123) -/

namespace Sys2Proof.Machine

/-- In SEEK, bytes without the marker change nothing. -/
theorem feed_of_startMarker_notMem {s : State} (h : ReadyInSeek s) {g : List Byte} (hg : startMarker ∉ g) :
    feed g s = .next s := by
  induction g with
  | nil => rfl
  | cons b g ih =>
    obtain ⟨hb, hg⟩ := not_or.1 (mt List.mem_cons.2 hg)
    have hdrop : ByteStep b s s := by
      have := ByteStep.seek (b := b) h.running h.seek
      rwa [State.seek_of_ne s (Ne.symm hb), State.commit_nil_of_sched h.alone] at this
    rw [feed_cons_next (stepByte_of_byteStep hdrop), ih hg]

/-- From SEEK, the wire bytes of a stored frame emit it, whatever it decodes to (R114). -/
theorem exists_feed_wireFrame {s : State} (h : ReadyInSeek s) (hL : s.params.layout.wf = true) {F : List Byte}
    (hF : StoredFrame F) :
    ∃ t e, feed (wireFrame s.params.crc8Table F) s = .next t ∧ t.phase = .seek ∧ t.events = s.events ++ [.frame F, e] ∧
      e.ofDecoder := by
  obtain ⟨i, hd⟩ := decodeFrame_isOk hL hF.headerLen_le
  refine ⟨_, instrEvent i, (feed_wireFrame h hF hd).trans (exec_eq _ _), State.phase_seek ?_, ?_, instrEvent_ofDecoder i⟩
  · rw [(execState_control _ _).idx, State.handed_idx]
  · rw [execState_events, State.handed_events, List.append_assoc]; rfl

/-- Settles O22: the bytes before the frame are dropped, so the frame meets the state in SEEK. -/
theorem frameAfterGarbageIsEmittedOnce : Obligations.FrameAfterGarbageIsEmittedOnce := by
  intro s g F h hL hg hF
  have hdrop := feed_of_startMarker_notMem h hg
  refine ⟨hdrop, ?_⟩
  rw [feed_append_next hdrop]
  exact exists_feed_wireFrame h hL hF

/-- A flipped bit changes the byte. -/
theorem xor_bit_ne (b : Byte) {j : Nat} (hj : j < 8) : b ^^^ (1#8 <<< j) ≠ b := by
  intro h
  have := congrArg (·.getLsbD j) h
  simp [hj] at this

/-- Under a table whose entries differ, replacing one byte by another changes the CRC. -/
theorem crc8_set_ne {T : Vector Byte 256} (hT : Function.Injective (tableAt T)) {s : List Byte} {k : Nat}
    (hk : k < s.length) {x : Byte} (hx : x ≠ s[k]) : crc8 T (s.set k x) ≠ crc8 T s := by
  conv => rhs; rw [← List.set_getElem_self hk]
  rw [List.set_eq_take_append_cons_drop, List.set_eq_take_append_cons_drop, if_pos hk, if_pos hk]
  exact crc8_ne_of_one_byte hT _ _ hx

/-- The same for a stored frame, whose marker the CRC leaves out (R73). -/
theorem crc8_drop_one_set_ne {T : Vector Byte 256} (hT : Function.Injective (tableAt T)) {F : List Byte} {k : Nat}
    (h1 : 1 ≤ k) (hk : k < F.length) {x : Byte} (hx : x ≠ byteAt F k) :
    crc8 T ((F.set k x).drop 1) ≠ crc8 T (F.drop 1) := by
  match F, k, h1 with
  | m :: F, k + 1, _ =>
    have hk' : k < F.length := Nat.lt_of_succ_lt_succ hk
    have hbyte : byteAt (m :: F) (k + 1) = F[k] := by simp [byteAt, hk']
    exact crc8_set_ne hT hk' (hbyte ▸ hx)

/-- A change behind the size byte leaves a stored frame. -/
theorem StoredFrame.set {F : List Byte} (hF : StoredFrame F) {k : Nat} (hk : 2 ≤ k) (x : Byte) : StoredFrame (F.set k x) := by
  obtain ⟨h0, n, h1, hl⟩ := hF
  exact ⟨by rw [List.getElem?_set_ne (by omega), h0], n, by rw [List.getElem?_set_ne (by omega), h1], by
    rw [List.length_set, hl]⟩

/-- From SEEK, the bytes of a stored frame and another byte than its CRC: the frame is dropped and reported (R115). -/
theorem feed_concat_of_ne_crc {s : State} (h : ReadyInSeek s) {F : List Byte} (hF : StoredFrame F) {b : Byte}
    (hb : b ≠ crc8 s.params.crc8Table (F.drop 1)) :
    feed (F ++ [b]) s = .next ((s.filled F).reject (byteAt F 2)) := by
  have he : (s.filled F).expectedSize.toNat = F.length := length_toNat_ofNat hF
  have hslice : (s.filled F).buf.slice 0 (s.filled F).expectedSize.toNat = some F := by
    rw [he]; exact s.buf.slice_writeAll F
  have hcheck := byteStep_reject (s := s.filled F) h.running rfl (he ▸ hF.headerLen_le) hslice hb
  rw [State.commit_nil_of_sched (s := (s.filled F).reject _) h.alone] at hcheck
  rw [feed_append_next (feed_storedFrame h hF), feed_cons_next (stepByte_of_byteStep hcheck), feed_nil]

theorem ReadyInSeek.reject_filled {s : State} (h : ReadyInSeek s) (F : List Byte) (addr : Byte) :
    ReadyInSeek ((s.filled F).reject addr) := ⟨rfl, h.running, h.alone⟩

/-- Settles O23: the flipped frame is rejected, since its CRC differs from the byte sent, and leaves the synchronizer in SEEK,
where the second frame is emitted. -/
theorem flippedBitIsRejectedAndTheNextFrameKept : Obligations.FlippedBitIsRejectedAndTheNextFrameKept := by
  intro s F V k j h hL hT hF hV h2 hk hj
  have hflip : byteAt F k ^^^ (1#8 <<< j) ≠ byteAt F k := xor_bit_ne _ hj
  generalize byteAt F k ^^^ (1#8 <<< j) = x at hflip ⊢
  have hcrc := (crc8_drop_one_set_ne hT (by omega) hk hflip).symm
  obtain ⟨t, e, hfeed, hp, hev, hdec⟩ := exists_feed_wireFrame (h.reject_filled (F.set k x) _) hL hV
  refine ⟨t, e, ?_, hp, ?_, hdec⟩
  · rw [feed_append_next (feed_concat_of_ne_crc h (hF.set h2 x) hcrc)]
    exact hfeed
  · rw [hev, State.reject_events, List.append_assoc, ← List.length_set (as := F) (i := k) (a := x)]
    rfl

end Sys2Proof.Machine

/-! ### No frame without its CRC (spec 41_framesync.md R116, R124) -/

namespace Sys2Proof.Machine

/-- A byte's step that raises `Frame(F)` is the CHECK that accepts the stored candidate `F`. -/
theorem ByteStep.accepted_of_frame_mem {b : Byte} {s t : State} {F : List Byte} (h : ByteStep b s t) (he : s.events = [])
    (hF : .frame F ∈ t.events) :
    s.stopped = false ∧ 2 ≤ s.idx.toNat ∧ s.expectedSize.toNat ≤ s.idx.toNat ∧
    s.buf.slice 0 s.expectedSize.toNat = some F ∧ b = crc8 s.params.crc8Table (F.drop 1) ∧
    ∃ e, t.events = [.frame F, e] ∧ e.ofDecoder := by
  cases h with
  | stopped => simp [he] at hF
  | seek => simp [he] at hF
  | size => simp [he] at hF
  | fill => simp [he] at hF
  | reject => simp [he] at hF
  | accept hr h2 hge G hG _ _ hb i hi =>
    have hev : (execState i (s.handed G)).events = [.frame G, instrEvent i] := by simp [execState_events, he]
    have hdec := instrEvent_ofDecoder i
    rw [hev, List.mem_pair] at hF
    rcases hF with hF | hF
    · cases hF
      exact ⟨hr, h2, hge, hG, hb, instrEvent i, hev, hdec⟩
    · rw [← hF] at hdec
      exact hdec.elim

/-- Only an offered byte's step raises a frame. -/
theorem StepCase.exists_byteStep_of_frame_mem {s t : State} {F : List Byte} (h : StepCase s t) (hF : .frame F ∈ t.events) :
    ∃ b during rest, s.inputs = .byte b during :: rest ∧ ByteStep b (s.offered during rest) t := by
  cases h with
  | byte b during rest hi t hb => exact ⟨b, during, rest, hi, hb⟩
  | idle => simp at hF
  | reset => simp at hF
  | syncRestart => simp at hF
  | stop => simp at hF
  | consumer => simp at hF

/-- Under the invariant a candidate in CHECK is a stored frame (R25, R70, R72). -/
theorem State.Inv.storedFrame {s : State} (h : s.Inv) (h2 : 2 ≤ s.idx.toNat) {F : List Byte}
    (hF : s.buf.slice 0 s.expectedSize.toNat = some F) : StoredFrame F := by
  obtain ⟨_, h0, n, h1, hn⟩ := h.candidate h2
  obtain ⟨hl, hr⟩ := (Memory.slice_eq_some _ _ _ _).1 hF
  exact ⟨(hr 0 (by omega)).symm.trans h0, n, (hr 1 (by omega)).symm.trans h1, hl.trans hn⟩

/-- Settles O24: only the accepting CHECK raises a frame, and under the invariant its candidate is a stored frame. -/
theorem noFrameWithoutItsCrc : Obligations.NoFrameWithoutItsCrc := by
  intro s t F hs h hF
  obtain ⟨b, during, rest, hi, hb⟩ := (step_iff.1 h).exists_byteStep_of_frame_mem hF
  obtain ⟨hr, h2, hge, hslice, rfl, e, hev, hdec⟩ := hb.accepted_of_frame_mem rfl hF
  have hne : e ≠ .frame F := by rintro rfl; exact hdec
  exact ⟨during, rest, hi, hr, BitVec.eq_of_toNat_eq (Nat.le_antisymm (hs.candidate h2).1 hge), hslice,
    hs.storedFrame h2 hslice, by simp [hev, hne]⟩

end Sys2Proof.Machine

/-! ### The record that a frame's bytes give (spec 42_decoder.md R132 to R136) -/

namespace Sys2Proof

open Sys2Proof.Machine

/-- A signed 2-byte field is sign-extended (R82). -/
theorem Field.get_half_signed {f : Field} {F : List Byte} (h : f.next ≤ F.length) (hf : f.width = .two ∧ f.signed = true) :
    f.get F = .ok ((halfAt F f.offset).signExtend 32) := by
  obtain ⟨v, hv, hhalf, _⟩ := Field.get_half h hf.1
  rw [← hhalf]
  exact Field.get_two_signed hf hv

/-- An unsigned 2-byte field is zero-extended (R82). -/
theorem Field.get_half_unsigned {f : Field} {F : List Byte} (h : f.next ≤ F.length)
    (hf : f.width = .two ∧ f.signed = false) : f.get F = .ok ((halfAt F f.offset).setWidth 32) := by
  obtain ⟨v, hv, _, hz⟩ := Field.get_half h hf.1
  rw [hv, hz hf.2]

/-- The record whose operands are the bytes of the frame that the layout gives each field. -/
def Layout.recordOf (L : Layout) (F : List Byte) : Variant → Instr
  | .telemetry =>
      .telemetry (byteAt F 2) (wordAt F L.orient.offset) (wordAt F L.posX.offset) (wordAt F L.posY.offset)
        (wordAt F L.posZ.offset) (halfAt F L.velX.offset) (halfAt F L.velY.offset) (halfAt F L.velZ.offset)
        (halfAt F L.voltageMv.offset) (byteAt F L.beacons.offset) (byteAt F L.status.offset) (byteAt F L.posErr.offset)
        (F.drop (L.frameLen .telemetry))
  | .sysStatus =>
      .sysStatus (byteAt F 2) (unsignedAt F L.sysIdentifier) (unsignedAt F L.sysConfigStatus)
        (unsignedAt F L.sysLogStatus) (unsignedAt F L.sysLoggerCapacity) (unsignedAt F L.sysLogSize)
  | .info =>
      .info (byteAt F 2) (unsignedAt F L.hwId) (unsignedAt F L.fwType) (unsignedAt F L.fwVersion)
        (unsignedAt F L.protoMinor) (unsignedAt F L.protoMajor) (wordAt F L.commitHash.offset)
        (halfAt F L.commitCount.offset) (F.drop (L.frameLen .info))
  | .rawAccel =>
      .rawAccel (byteAt F 2) (halfAt F L.accX.offset) (halfAt F L.accY.offset) (halfAt F L.accZ.offset)
        (F.drop (L.frameLen .rawAccel))
  | .strength =>
      .strength (byteAt F 2) (halfAt F L.lvl0.offset) (halfAt F L.lvl1.offset) (halfAt F L.lvl2.offset)
        (halfAt F L.lvl3.offset)

theorem instrVariant_recordOf (L : Layout) (F : List Byte) (v : Variant) : instrVariant (L.recordOf F v) = some v := by
  cases v <;> rfl

theorem addr_recordOf (L : Layout) (F : List Byte) (v : Variant) : (L.recordOf F v).addr = byteAt F 2 := by
  cases v <;> rfl

theorem extra_recordOf {L : Layout} {F : List Byte} {v : Variant} (h : L.takesLength v F.length = true) :
    (L.recordOf F v).extra = F.drop (L.frameLen v) := by
  cases v with
  | sysStatus | strength => exact (List.drop_eq_nil_of_le (of_decide_eq_true h : F.length = _).le).symm
  | telemetry | info | rawAccel => rfl

/-- Each field of a frame long enough reads its bytes. -/
theorem get_fieldValues_recordOf {L : Layout} (hL : L.Facts) {F : List Byte} {v : Variant} (h : L.minLen v ≤ F.length) :
    ∀ p ∈ (L.recordOf F v).fieldValues L, p.1.get F = .ok p.2 := by
  have next := fun f hf => (L.next_le_minLen v (f := f) hf).trans h
  cases v with
  | telemetry =>
    simp only [Layout.fields, List.forall_mem_cons] at next
    obtain ⟨ho, hx, hy, hz, hvx, hvy, hvz, hmv, hbc, hst, hpe, -⟩ := next
    have position := hL.position
    have velocity := hL.velocity
    have byte := hL.bytes
    simp only [List.forall_mem_cons] at position velocity byte
    obtain ⟨x, y, z, -⟩ := position
    obtain ⟨vx, vy, vz, -⟩ := velocity
    obtain ⟨bc, st, pe, -⟩ := byte
    simp only [Layout.recordOf, Instr.fieldValues, List.forall_mem_cons]
    exact ⟨Field.get_word ho hL.orient.1, Field.get_word hx x.1, Field.get_word hy y.1, Field.get_word hz z.1,
      Field.get_half_signed hvx vx, Field.get_half_signed hvy vy, Field.get_half_signed hvz vz,
      Field.get_half_unsigned hmv hL.voltage, Field.get_byte hbc bc.1 bc.2, Field.get_byte hst st.1 st.2,
      Field.get_byte hpe pe.1 pe.2, nofun⟩
  | sysStatus =>
    have get := fun f hf => Field.get_unsigned (next f hf) (hL.sysUnsigned f hf)
    simpa [Layout.recordOf, Instr.fieldValues, Layout.fields] using get
  | info =>
    have get := fun f hf => Field.get_unsigned (f := f) (next f (List.mem_append_left [L.commitHash, L.commitCount] hf))
      (hL.infoUnsigned f hf)
    have hash := Field.get_word (next L.commitHash (by simp [Layout.fields])) hL.commitHash.1
    have count := Field.get_half_unsigned (next L.commitCount (by simp [Layout.fields])) hL.commitCount
    simp only [List.forall_mem_cons] at get
    simp [Layout.recordOf, Instr.fieldValues, get, hash, count]
  | rawAccel =>
    have get := fun f hf => Field.get_half_signed (next f hf) (hL.rawAccel f hf)
    simpa [Layout.recordOf, Instr.fieldValues, Layout.fields] using get
  | strength =>
    have get := fun f hf => Field.get_half_signed (next f hf) (hL.levels f hf)
    simpa [Layout.recordOf, Instr.fieldValues, Layout.fields] using get

/-- A frame with a variant's tag and a length that the variant takes is decoded to the record of its bytes. -/
theorem decodeFrame_eq_recordOf {L : Layout} (hL : L.wf = true) {F : List Byte} {v : Variant} (ht : byteAt F 3 = v.tag)
    (hlen : L.takesLength v F.length = true) : decodeFrame L F = .ok (L.recordOf F v) := by
  have hge := frameLen_le_of_takesLength hlen
  have hget := get_fieldValues_recordOf (F := F) (Layout.facts hL) ((minLen_le_frameLen (Layout.facts hL) v).trans hge)
  rw [decodeFrame_of ((headerLen_le_frameLen hL v).trans hge) (selectVariant_eq_ok_iff.2 ⟨ht, hlen⟩),
    ← addr_recordOf L F v]
  exact decodeVariant_of_fieldValues (instrVariant_recordOf L F v) (extra_recordOf hlen) hget

end Sys2Proof

/-! ### The numbers that an instruction leaves in its slots (spec 43_store_host.md R160 to R164) -/

namespace Sys2Proof.Machine

/-- The number that a written slot answers: the value at the slot's width, signed as the slot is (R20, R167). -/
def SlotWrite.number (w : SlotWrite) : Int :=
  if w.slot.signed then (w.value.setWidth w.slot.width).toInt else (w.value.setWidth w.slot.width).toNat

theorem SlotName.width_le (n : SlotName) : n.width ≤ 32 := by cases n <;> decide

/-- A slot holds its value widened to 32 bits, which loses nothing. -/
theorem SlotName.number_setWidth (n : SlotName) (x : BitVec n.width) :
    n.number (x.setWidth 32) = if n.signed then x.toInt else (x.toNat : Int) := by
  rw [SlotName.number, setWidth_setWidth_same n.width_le, BitVec.toNat_setWidth_of_le n.width_le]

theorem execState_read_number {i : Instr} {w : SlotWrite} (h : w ∈ instrWrites i) (s : State) :
    (execState i s).store.read w.slot = some w.number := by
  rw [execState_read i s h, SlotName.number_setWidth, SlotWrite.number]

theorem rollField_toNat (o : Word32) : (rollField o).toNat = o.toNat % 2048 := by
  simp [rollField]

theorem pitchField_toNat (o : Word32) : (pitchField o).toNat = o.toNat / 2048 % 1024 := by
  simp [pitchField, Nat.shiftRight_eq_div_pow]

theorem yawField_toNat (o : Word32) : (yawField o).toNat = o.toNat / 2097152 := by
  have := o.isLt
  simp only [yawField, BitVec.extractLsb'_toNat, Nat.shiftRight_eq_div_pow]
  omega

/-- A number that fits the slot's width is kept. -/
theorem toNat_setWidth_ofNat {a w : Nat} (hw : w ≤ 32) (ha : a < 2 ^ w) : ((BitVec.ofNat 32 a).setWidth w).toNat = a := by
  rw [BitVec.setWidth_ofNat_of_le hw, BitVec.toNat_ofNat, Nat.mod_eq_of_lt ha]

/-- The slots that an instruction commits, with the number that each answers afterwards. -/
def instrNumbers : Instr → List (SlotName × Int)
  | .telemetry addr o x y z vx vy vz mv bc st pe _ =>
      [(.address, addr.toNat), (.rollMrad, roll (o.toNat % 2048)), (.pitchMrad, pitch (o.toNat / 2048 % 1024)),
       (.yawMrad, yaw (o.toNat / 2097152)), (.posX, x.toInt), (.posY, y.toInt), (.posZ, z.toInt), (.velX, vx.toInt),
       (.velY, vy.toInt), (.velZ, vz.toInt), (.voltageMv, mv.toNat), (.beacons, bc.toNat), (.status, st.toNat),
       (.posErr, pe.toNat)]
  | .sysStatus _ ident cfg log cap size =>
      [(.sysIdentifier, ident.toNat), (.sysConfigStatus, cfg.toNat), (.sysLogStatus, log.toNat),
       (.sysLoggerCapacity, cap.toNat), (.sysLogSize, size.toNat)]
  | .info _ hw fwt fwv pmin pmaj hash cnt _ =>
      [(.hwId, hw.toNat), (.fwType, fwt.toNat), (.fwVersion, fwv.toNat), (.protoMinor, pmin.toNat),
       (.protoMajor, pmaj.toNat), (.commitHash, hash.toNat), (.commitCount, cnt.toNat)]
  | .rawAccel _ x y z _ => [(.accX, x.toInt), (.accY, y.toInt), (.accZ, z.toInt)]
  | .strength _ l0 l1 l2 l3 => [(.lvl0, l0.toInt), (.lvl1, l1.toInt), (.lvl2, l2.toInt), (.lvl3, l3.toInt)]
  | .unrecognized _ _ _ _ => []

/-- Every operand is as wide as its slot, and the angles fit theirs by their ranges (R32). -/
theorem map_number_instrWrites (i : Instr) :
    (instrWrites i).map (fun w => (w.slot, w.number)) = instrNumbers i := by
  cases i with
  | telemetry addr o =>
    have hr := toNat_setWidth_ofNat (w := 13) (by decide) ((roll_le (rollField o).isLt).trans_lt (by decide))
    have hp := toNat_setWidth_ofNat (w := 12) (by decide) ((pitch_le (pitchField o).isLt).trans_lt (by decide))
    have hy := toNat_setWidth_ofNat (w := 16) (by decide) ((yaw_le (yawField o).isLt).trans_lt (by decide))
    simp only [rollField_toNat, pitchField_toNat, yawField_toNat] at hr hp hy
    simp only [instrWrites, telemetryWrites, instrNumbers, List.map, SlotWrite.number, SlotName.width, SlotName.signed,
      Bool.false_eq_true, if_false, if_true, setWidth_setWidth_same, Nat.reduceLeDiff, BitVec.setWidth_eq,
      hr, hp, hy, rollField_toNat, pitchField_toNat, yawField_toNat]
  | sysStatus | info | rawAccel | strength | unrecognized =>
    simp only [instrWrites, sysStatusWrites, infoWrites, rawAccelWrites, strengthWrites, instrNumbers, List.map,
      SlotWrite.number, SlotName.width, SlotName.signed, Bool.false_eq_true, if_false, if_true, setWidth_setWidth_same,
      Nat.reduceLeDiff, BitVec.setWidth_eq]

/-- What each slot of an instruction answers after it. -/
theorem execState_read_instrNumbers (i : Instr) (s : State) :
    ∀ p ∈ instrNumbers i, (execState i s).store.read p.1 = some p.2 := by
  intro p hp
  rw [← map_number_instrWrites] at hp
  obtain ⟨w, hw, rfl⟩ := List.mem_map.1 hp
  exact execState_read_number hw s

end Sys2Proof.Machine

/-! ### Frames, from the buffer to the slots (spec 42_decoder.md R130 to R137) -/

namespace Sys2Proof.Machine

/-- Settles O35: an UNRECOGNIZED frame has no slot writes, and its event is the notice of its reason. -/
theorem unrecognizedWritesNothingAndSaysWhy : Obligations.UnrecognizedWritesNothingAndSaysWhy := by
  intro s addr tag payload why
  have hev := execState_events (.unrecognized why addr tag payload) s
  rw [instrEvent, Nat.add_comm] at hev
  refine ⟨_, exec_eq _ s, fun n => execState_get_of_variant _ s n nofun, execState_fresh _ s, ?_, ?_, ?_,
    execState_control _ s, execState_replies _ s⟩ <;> (rintro rfl; exact hev)

/-- The step of a frame about to be emitted that decodes runs the instruction (O15), which completes. -/
theorem step_of_aboutToEmit {s : State} {F : List Byte} {during : List SchedItem} {rest : List Input} {i : Instr}
    (h : AboutToEmit s F during rest) (hd : decodeFrame s.params.layout F = .ok i) :
    step s = .next (execState i (s.emitted F during rest)) := by
  rw [checkPassRunsTheDecodedFrame s F during rest i h hd, exec_eq]

/-- A frame about to be emitted that a variant takes: the two events, the slots of the record, and nothing else. -/
theorem exists_step_record {s : State} {F : List Byte} {during : List SchedItem} {rest : List Input}
    (h : AboutToEmit s F during rest) {L : Layout} (hs : s.params.layout = L) (hL : L.wf = true) {v : Variant}
    (ht : byteAt F 3 = v.tag) (hlen : L.takesLength v F.length = true) :
    ∃ t, step s = .next t ∧ t.events = [.frame F, .record v] ∧
      (∀ p ∈ instrNumbers (L.recordOf F v), t.store.read p.1 = some p.2) ∧
      t.fresh = (if v = .telemetry then true else freshAfter (consumerOps during) s.fresh) ∧
      OtherSlotsKept v s t ∧ SameControl (s.emitted F during rest) t := by
  subst hs
  have hv := instrVariant_recordOf s.params.layout F v
  refine ⟨_, step_of_aboutToEmit h (decodeFrame_eq_recordOf hL ht hlen), ?_, execState_read_instrNumbers _ _, ?_,
    fun n hn => ?_, execState_control _ _⟩
  · rw [execState_events, (instrEvent_eq_record_iff _ v).2 hv, State.emitted_events]; rfl
  · rw [execState_fresh, hv, State.emitted_sched, State.emitted_fresh]
    simp only [Option.some.injEq]
  · rw [execState_get_of_variant _ _ n (by rw [hv]; simpa using Ne.symm hn), State.emitted_store]

/-- A frame about to be emitted that no variant takes: the frame and its notice, and no slot. -/
theorem exists_step_unrecognized {s : State} {F : List Byte} {during : List SchedItem} {rest : List Input}
    (h : AboutToEmit s F during rest) (h4 : headerLen ≤ F.length) {why : Reason}
    (hw : selectVariant s.params.layout (byteAt F 3) F.length = .error why) :
    ∃ t, step s = .next t ∧ t.events = [.frame F, noticeEvent why (byteAt F 3) F.length] ∧ SameStore s t ∧
      t.fresh = freshAfter (consumerOps during) s.fresh ∧ SameControl (s.emitted F during rest) t := by
  obtain ⟨payload, hl, hd⟩ := decodeFrame_error h4 hw
  refine ⟨_, step_of_aboutToEmit h hd, ?_, fun n => execState_get_of_variant _ _ n nofun, execState_fresh _ _,
    execState_control _ _⟩
  rw [execState_events, instrEvent, Nat.add_comm, hl, State.emitted_events]
  rfl

/-- Settles O36: the record of the frame's bytes, at the default offsets. -/
theorem telemetryFrameReachesItsSlots : Obligations.TelemetryFrameReachesItsSlots := by
  intro s F during rest h hs ht hlen
  obtain ⟨t, hstep, hev, hread, hfresh, hkept, hcontrol⟩ :=
    exists_step_record h hs Layout.default_wf (v := .telemetry) ht (decide_eq_true hlen)
  simp only [Layout.recordOf, instrNumbers, List.forall_mem_cons] at hread
  obtain ⟨haddr, hroll, hpitch, hyaw, hx, hy, hz, hvx, hvy, hvz, hmv, hbc, hst, hpe, -⟩ := hread
  exact ⟨t, hstep, hev, hfresh, haddr, hroll, hpitch, hyaw, hx, hy, hz, hvx, hvy, hvz, hmv, hbc, hst, hpe, hkept, hcontrol⟩

/-- Settles O37: the record of the frame's bytes, under the state's own layout. -/
theorem sysStatusFrameReachesItsSlots : Obligations.SysStatusFrameReachesItsSlots := by
  intro s F during rest h hL ht hlen
  obtain ⟨t, hstep, hev, hread, hfresh, hkept, hcontrol⟩ :=
    exists_step_record h rfl hL (v := .sysStatus) ht (decide_eq_true hlen)
  simp only [Layout.recordOf, instrNumbers, List.forall_mem_cons] at hread
  obtain ⟨hident, hcfg, hlog, hcap, hsize, -⟩ := hread
  exact ⟨t, hstep, hev, hident, hcfg, hlog, hcap, hsize, hfresh, hkept, hcontrol⟩

/-- Settles O38: the record of the frame's bytes, under the state's own layout. -/
theorem infoFrameReachesItsSlots : Obligations.InfoFrameReachesItsSlots := by
  intro s F during rest h hL ht hlen
  obtain ⟨t, hstep, hev, hread, hfresh, hkept, hcontrol⟩ :=
    exists_step_record h rfl hL (v := .info) ht (decide_eq_true hlen)
  simp only [Layout.recordOf, instrNumbers, List.forall_mem_cons] at hread
  obtain ⟨hhw, hfwt, hfwv, hpmin, hpmaj, hhash, hcnt, -⟩ := hread
  exact ⟨t, hstep, hev, hhw, hfwt, hfwv, hpmin, hpmaj, hhash, hcnt, hfresh, hkept, hcontrol⟩

/-- Settles O39: the record of the frame's bytes, at the default offsets. -/
theorem rawAccelFrameReachesItsSlots : Obligations.RawAccelFrameReachesItsSlots := by
  intro s F during rest h hs ht hlen
  obtain ⟨t, hstep, hev, hread, hfresh, hkept, hcontrol⟩ :=
    exists_step_record h hs Layout.default_wf (v := .rawAccel) ht (decide_eq_true hlen)
  simp only [Layout.recordOf, instrNumbers, List.forall_mem_cons] at hread
  obtain ⟨hx, hy, hz, -⟩ := hread
  exact ⟨t, hstep, hev, hx, hy, hz, hfresh, hkept, hcontrol⟩

/-- Settles O40: the record of the frame's bytes, at the default offsets. -/
theorem strengthFrameReachesItsSlots : Obligations.StrengthFrameReachesItsSlots := by
  intro s F during rest h hs ht hlen
  obtain ⟨t, hstep, hev, hread, hfresh, hkept, hcontrol⟩ :=
    exists_step_record h hs Layout.default_wf (v := .strength) ht (decide_eq_true hlen)
  simp only [Layout.recordOf, instrNumbers, List.forall_mem_cons] at hread
  obtain ⟨h0, h1, h2, h3, -⟩ := hread
  exact ⟨t, hstep, hev, h0, h1, h2, h3, hfresh, hkept, hcontrol⟩

/-- Settles O41: the dispatch map (O43) says which frames no variant takes, and why. -/
theorem ignoredFrameWritesNoSlot : Obligations.IgnoredFrameWritesNoSlot := by
  intro s F during rest h hs h4
  obtain ⟨-, -, -, -, -, hshort, hmismatch, htag⟩ := dispatchIsOnTagThenLength (byteAt F 3) F.length
  rw [← hs] at hshort hmismatch htag
  exact ⟨fun hc => exists_step_unrecognized h h4 (htag.2 hc), fun hc => exists_step_unrecognized h h4 (hmismatch.2 hc),
    fun hc => exists_step_unrecognized h h4 (hshort.2 hc)⟩

end Sys2Proof.Machine

/-! ### The angle functions (spec 42_decoder.md R141, R143, R144) -/

namespace Sys2Proof.Machine

/-- Up to a divisor of 3141 one field value is more than one milliradian, so the rounded angles differ (R144). -/
theorem milliradians_lt {j k d : Nat} (hd : 0 < d) (hd' : d ≤ 3141) (h : j < k) : milliradians j d < milliradians k d := by
  have hpos : 0 < 2 * d * 10 ^ 9 := by omega
  rw [← Nat.succ_le_iff, milliradians, milliradians, Nat.succ_eq_add_one, ← Nat.add_div_right _ hpos]
  exact Nat.div_le_div_right (by omega)

/-- Settles O52: both divisors are small enough, pitch and roll are one function, and the last entries are computed. -/
theorem anglesIncreaseStrictly : Obligations.AnglesIncreaseStrictly :=
  ⟨fun _ _ h _ => ⟨milliradians_lt (by decide) (by decide) h, milliradians_lt (by decide) (by decide) h⟩, fun _ _ => rfl,
    by decide, by decide, by decide⟩

/-- The remainder of the division that `milliradians` does: how far the number to be rounded lies above the lower end of its
rounding interval, in units of `1 / (2 d 10^9)` milliradians. -/
def roundingMargin (k d : Nat) : Nat := (2 * k * 3141592654 * 1000 + d * 10 ^ 9) % (2 * d * 10 ^ 9)

/-- The approximation 3.141592654 is above π by less than 4.105e-10, which moves the angle of `k` down by less than `821 k` units
of the margin. Where the margin is larger, the rounded number is the nearest integer to the real angle too. -/
theorem abs_sub_milliradians_lt {k d : Nat} (hd : 0 < d) (h : 821 * k < roundingMargin k d) :
    |1000 * (k : ℝ) * Real.pi / d - (milliradians k d : ℝ)| < 1 / 2 := by
  have hdiv := Nat.div_add_mod (2 * k * 3141592654 * 1000 + d * 10 ^ 9) (2 * d * 10 ^ 9)
  have hlt : roundingMargin k d < 2 * d * 10 ^ 9 := Nat.mod_lt _ (by omega)
  rw [← milliradians, ← roundingMargin] at hdiv
  have hd0 : (0 : ℝ) < d := by exact_mod_cast hd
  have hk0 : (0 : ℝ) ≤ k := k.cast_nonneg
  have hupper : (k : ℝ) * Real.pi ≤ k * 3.141592654 :=
    mul_le_mul_of_nonneg_left (Real.pi_lt_d20.le.trans (by norm_num)) hk0
  have hlower : (k : ℝ) * (3.141592654 - 4.105e-10) ≤ k * Real.pi :=
    mul_le_mul_of_nonneg_left (le_trans (by norm_num) Real.pi_gt_d20.le) hk0
  have hdivR : (2 * d * 10 ^ 9 : ℝ) * milliradians k d + roundingMargin k d = 2 * k * 3141592654 * 1000 + d * 10 ^ 9 := by
    exact_mod_cast hdiv
  have hltR : (roundingMargin k d : ℝ) < 2 * d * 10 ^ 9 := by exact_mod_cast hlt
  have hR : (821 : ℝ) * k < roundingMargin k d := by exact_mod_cast h
  have hsub : 1000 * (k : ℝ) * Real.pi / d - milliradians k d = (1000 * k * Real.pi - d * milliradians k d) / d := by
    field_simp
  rw [hsub, abs_lt, lt_div_iff₀ hd0, div_lt_iff₀ hd0]
  constructor <;> linarith

/-- No roll or pitch angle is moved across the end of its rounding interval. -/
theorem roundingMargin_roll : ∀ k < 2048, 821 * k < roundingMargin k 1024 := by decide +kernel

/-- No yaw angle is moved across the end of its rounding interval. -/
theorem roundingMargin_yaw : ∀ k < 2048, 821 * k < roundingMargin k 102 := by decide +kernel

/-- Settles O51: the rounding margins, computed for every field value, and the bounds of π in the library. -/
theorem anglesAreTheNearestMilliradian : Obligations.AnglesAreTheNearestMilliradian :=
  ⟨fun k hk => by exact_mod_cast abs_sub_milliradians_lt (by decide) (roundingMargin_roll k hk),
    fun k hk => by exact_mod_cast abs_sub_milliradians_lt (by decide) (roundingMargin_roll k (by omega)),
    fun k hk => by exact_mod_cast abs_sub_milliradians_lt (by decide) (roundingMargin_yaw k hk)⟩

end Sys2Proof.Machine

/-! ### STOP and the consumer's operations (spec 43_store_host.md R166 to R168, R175) -/

namespace Sys2Proof.Machine

/-- Settles O4: STOP is one of the cases of a step, and a stopped block ignores the byte (O5). -/
theorem stopWritesOnlyStopped : Obligations.StopWritesOnlyStopped := by
  intro s rest hi
  refine ⟨step_iff.2 (.stop rest hi), fun b during rest' hrest => ?_⟩
  obtain ⟨t, hstep, hstore, hidx, hexp, hbuf, -⟩ := stoppedBlockIgnoresAByte (s.begin rest).setStopped b during rest' rfl hrest
  exact ⟨t, hstep, hidx, hexp, hbuf, hstore⟩

theorem step_takeIfFresh {s : State} {rest : List Input} (hi : s.inputs = .consumer .takeIfFresh :: rest) :
    step s = .next { s with fresh := false, inputs := rest, events := [], replies := [.took s.fresh] } :=
  step_iff.2 (.consumer .takeIfFresh rest hi)

/-- Settles O9: the second call takes what the first one left. -/
theorem takeIfFreshTestsAndClears : Obligations.TakeIfFreshTestsAndClears :=
  fun _ _ hi => ⟨step_takeIfFresh hi, fun _ hrest => step_takeIfFresh hrest⟩

/-- Settles O10: a consumer's READ is one of the cases of a step, and its reply is the store's `read`, written out. -/
theorem readAnswersTheSlotAndChangesNothing : Obligations.ReadAnswersTheSlotAndChangesNothing :=
  fun _ n rest hi => step_iff.2 (.consumer (.read n) rest hi)

theorem assemble_some_cons (x : Int) (l : List (Option Int)) : assemble (some x :: l) = (assemble l).map (x :: ·) := by
  rw [assemble]
  cases assemble l <;> rfl

theorem assemble_eq_none_iff {l : List (Option Int)} : assemble l = none ↔ none ∈ l := by
  induction l with
  | nil => simp [assemble]
  | cons o l ih =>
    cases o with
    | none => simp [assemble]
    | some x => simp [assemble_some_cons, ih]

theorem map_some_of_assemble {l : List (Option Int)} {xs : List Int} (h : assemble l = some xs) : xs.map some = l := by
  induction l generalizing xs with
  | nil => cases h; rfl
  | cons o l ih =>
    cases o with
    | none => cases h
    | some x =>
      rw [assemble_some_cons] at h
      obtain ⟨ys, hys, rfl⟩ := Option.map_eq_some_iff.1 h
      rw [List.map_cons, ih hys]

/-- Settles O11: a group is none when one of its reads is, and a read is none when its slot is invalid. -/
theorem accessorGroupIsNoneWhenASlotIsInvalid : Obligations.AccessorGroupIsNoneWhenASlotIsInvalid := by
  refine fun a st => ⟨?_, fun xs => map_some_of_assemble⟩
  simp only [Accessor.sample, assemble_eq_none_iff, List.mem_map, Store.read_eq_none_iff]

end Sys2Proof.Machine

/-! ### What each record commits (spec 43_store_host.md R160 to R165) -/

namespace Sys2Proof.Machine

/-- Settles O26: of what a step can do to the store, RESET and a commit change slots, and a commit changes those of its own
variant only (R29). -/
theorem onlyResetOrItsOwnRecordWritesASlot : Obligations.OnlyResetOrItsOwnRecordWritesASlot := by
  intro s t n h hne
  rcases (step_iff.1 h).store_cases with he | ⟨rest, hi, _⟩ | ⟨F, i, _, hev, he⟩
  · exact absurd (by rw [he]) hne
  · exact .inl ⟨rest, hi⟩
  · have hv : instrVariant i = some n.variant := by
      by_contra hv
      rw [he, ← execState_store i s] at hne
      exact hne (execState_get_of_variant i s n hv)
    exact .inr ⟨F, by rw [hev, (instrEvent_eq_record_iff i _).2 hv]⟩

/-- An instruction that carries a record: its slots answer the record's numbers, its event is raised, and nothing else changes
but `fresh`, which TELEMETRY sets and a consumer may take. -/
theorem exists_exec_record {i : Instr} {v : Variant} (hv : instrVariant i = some v) (s : State) :
    ∃ t, exec i s = .next t ∧ (∀ p ∈ instrNumbers i, t.store.read p.1 = some p.2) ∧
      t.fresh = (if v = .telemetry then true else freshAfter (consumerOps s.sched) s.fresh) ∧
      t.events = s.events ++ [.record v] ∧ OtherSlotsKept v s t ∧ SameControl s t ∧ RepliesAppended s t := by
  refine ⟨_, exec_eq i s, execState_read_instrNumbers i s, ?_, ?_, fun n hn => execState_get_of_variant i s n ?_,
    execState_control i s, execState_replies i s⟩
  · simp only [execState_fresh, hv, Option.some.injEq]
  · rw [execState_events, (instrEvent_eq_record_iff i v).2 hv]
  · rw [hv]; simpa using hn.symm

/-- Settles O30: the numbers of a Telemetry record, and the one instruction that sets `fresh`. -/
theorem telemetryCommitsItsRecordAndSetsFresh : Obligations.TelemetryCommitsItsRecordAndSetsFresh := by
  intro s addr o x y z vx vy vz mv bc st pe extra
  obtain ⟨t, hexec, hread, hfresh, hev, hframe⟩ :=
    exists_exec_record (i := .telemetry addr o x y z vx vy vz mv bc st pe extra) rfl s
  simp only [instrNumbers, List.forall_mem_cons] at hread
  obtain ⟨haddr, hroll, hpitch, hyaw, hx, hy, hz, hvx, hvy, hvz, hmv, hbc, hst, hpe, -⟩ := hread
  exact ⟨t, hexec, haddr, hroll, hpitch, hyaw, hx, hy, hz, hvx, hvy, hvz, hmv, hbc, hst, hpe, hfresh, hev, hframe⟩

/-- Settles O31: the numbers of a SysStatus record. -/
theorem sysStatusCommitsItsRecord : Obligations.SysStatusCommitsItsRecord := by
  intro s addr ident cfg log cap size
  obtain ⟨t, hexec, hread, hrest⟩ := exists_exec_record (i := .sysStatus addr ident cfg log cap size) rfl s
  simp only [instrNumbers, List.forall_mem_cons] at hread
  obtain ⟨hident, hcfg, hlog, hcap, hsize, -⟩ := hread
  exact ⟨t, hexec, hident, hcfg, hlog, hcap, hsize, hrest⟩

/-- Settles O32: the numbers of an Info record. -/
theorem infoCommitsItsRecord : Obligations.InfoCommitsItsRecord := by
  intro s addr hw fwt fwv pmin pmaj hash cnt extra
  obtain ⟨t, hexec, hread, hrest⟩ := exists_exec_record (i := .info addr hw fwt fwv pmin pmaj hash cnt extra) rfl s
  simp only [instrNumbers, List.forall_mem_cons] at hread
  obtain ⟨hhw, hfwt, hfwv, hpmin, hpmaj, hhash, hcnt, -⟩ := hread
  exact ⟨t, hexec, hhw, hfwt, hfwv, hpmin, hpmaj, hhash, hcnt, hrest⟩

/-- Settles O33: the numbers of a RawAccel record. -/
theorem rawAccelCommitsItsRecord : Obligations.RawAccelCommitsItsRecord := by
  intro s addr x y z extra
  obtain ⟨t, hexec, hread, hrest⟩ := exists_exec_record (i := .rawAccel addr x y z extra) rfl s
  simp only [instrNumbers, List.forall_mem_cons] at hread
  obtain ⟨hx, hy, hz, -⟩ := hread
  exact ⟨t, hexec, hx, hy, hz, hrest⟩

/-- Settles O34: the numbers of a Strength record. -/
theorem strengthCommitsItsRecord : Obligations.StrengthCommitsItsRecord := by
  intro s addr l0 l1 l2 l3
  obtain ⟨t, hexec, hread, hrest⟩ := exists_exec_record (i := .strength addr l0 l1 l2 l3) rfl s
  simp only [instrNumbers, List.forall_mem_cons] at hread
  obtain ⟨h0, h1, h2, h3, -⟩ := hread
  exact ⟨t, hexec, h0, h1, h2, h3, hrest⟩

end Sys2Proof.Machine

/-! ### Every step answers a next state (spec 60_exceptions.md R197) -/

namespace Sys2Proof.Machine

/-- Under the invariant CHECK is taken at `expected_size`, with the whole candidate in the buffer (R21, R25). -/
theorem State.Inv.exists_slice_of_check {s : State} (h : s.Inv) (h2 : 2 ≤ s.idx.toNat)
    (hge : s.expectedSize.toNat ≤ s.idx.toNat) :
    s.idx = s.expectedSize ∧ ∃ F, s.buf.slice 0 s.expectedSize.toNat = some F := by
  refine ⟨BitVec.eq_of_toNat_eq (Nat.le_antisymm (h.candidate h2).1 hge), Memory.slice_isSome _ _ _ fun k hk => ?_⟩
  rw [Nat.zero_add]
  exact h.written k (hk.trans_le hge)

/-- Under the invariant CHECK answers: the candidate is a stored frame, so it has a header and decodes (R131, R140). -/
theorem State.Inv.exists_byteStep_check {s : State} (h : s.Inv) (hr : s.stopped = false) (h2 : 2 ≤ s.idx.toNat)
    (hge : s.expectedSize.toNat ≤ s.idx.toNat) (b : Byte) : ∃ t, ByteStep b s t := by
  obtain ⟨hc, F, hF⟩ := h.exists_slice_of_check h2 hge
  have h4 : headerLen ≤ F.length := (h.storedFrame h2 hF).headerLen_le
  have hl : F.length = s.expectedSize.toNat := ((Memory.slice_eq_some _ _ _ _).1 hF).1
  by_cases hb : b = crc8 s.params.crc8Table (F.drop 1)
  · obtain ⟨i, hd⟩ := decodeFrame_isOk h.layout h4
    exact ⟨_, hb ▸ byteStep_accept hr hc hF hd⟩
  · exact ⟨_, byteStep_reject hr hc (hl ▸ h4) hF hb⟩

/-- Under the invariant every byte has a step: SEEK and SIZE ask for nothing, FILL stays inside the buffer since N + 4 is at
most 259, and CHECK answers. -/
theorem State.Inv.exists_byteStep {s : State} (h : s.Inv) (b : Byte) : ∃ t, ByteStep b s t := by
  cases hr : s.stopped with
  | true => exact ⟨_, .stopped hr⟩
  | false =>
    rcases s.phase_cases with ⟨_, h0⟩ | ⟨_, h1⟩ | ⟨_, h2, hlt⟩ | ⟨_, h2, hge⟩
    · exact ⟨_, .seek hr h0⟩
    · exact ⟨_, .size hr h1⟩
    · have hle := h.expectedSize_le h2
      exact ⟨_, .fill hr h2 hlt (by simp only [bufCapacity]; omega)⟩
    · exact h.exists_byteStep_check hr h2 hge b

/-- Settles O58: a byte has a step under the invariant (`State.Inv.exists_byteStep`), and every other input has one anyway. -/
theorem everyStepSucceedsUnderTheInvariant : Obligations.EveryStepSucceedsUnderTheInvariant := by
  intro s hs
  match hi : s.inputs with
  | [] => exact ⟨_, step_iff.2 (.idle hi)⟩
  | .byte b during :: rest =>
    obtain ⟨t, hb⟩ := (hs.offered during rest).exists_byteStep b
    exact ⟨t, step_of_byteStep hi hb⟩
  | .reset :: rest => exact ⟨_, step_iff.2 (.reset rest hi)⟩
  | .syncRestart :: rest => exact ⟨_, step_iff.2 (.syncRestart rest hi)⟩
  | .stop :: rest => exact ⟨_, step_iff.2 (.stop rest hi)⟩
  | .consumer op :: rest => exact ⟨_, step_iff.2 (.consumer op rest hi)⟩

end Sys2Proof.Machine

/-! ### The events of a step, and the step with nothing offered (spec 60_exceptions.md R190, R194, R199, R208) -/

namespace Sys2Proof.Machine

/-- The events that one step can raise, in their order (R199). -/
def StepEvents (es : List Event) : Prop :=
  es = [] ∨ (∃ addr size, es = [.crcMismatch addr size]) ∨ ∃ F e, es = [.frame F, e] ∧ e.ofDecoder

/-- Only CHECK raises events: the diagnostic when it rejects, the frame and the decoder's event when it accepts. -/
theorem ByteStep.stepEvents {b : Byte} {s t : State} (h : ByteStep b s t) (he : s.events = []) : StepEvents t.events := by
  cases h with
  | stopped => exact .inl (by simp [he])
  | seek => exact .inl (by simp [he])
  | size => exact .inl (by simp [he])
  | fill => exact .inl (by simp [he])
  | reject _ _ _ _ _ addr _ _ => exact .inr (.inl ⟨addr, s.expectedSize, by simp [he]⟩)
  | accept _ _ _ F _ _ _ _ i _ =>
    exact .inr (.inr ⟨F, instrEvent i, by simp [execState_events, he], instrEvent_ofDecoder i⟩)

/-- A step begins without events, and no input but a byte raises one. -/
theorem StepCase.stepEvents {s t : State} (h : StepCase s t) : StepEvents t.events := by
  cases h with
  | idle => exact .inl (by simp)
  | byte _ _ _ _ _ hb => exact hb.stepEvents rfl
  | reset => exact .inl (by simp)
  | syncRestart => exact .inl (by simp)
  | stop => exact .inl (by simp)
  | consumer => exact .inl (by simp)

/-- Settles O25, from the case analysis of a step: `StepEvents` lists the three outcomes. -/
theorem eventsOfAStepComeInThisOrder : Obligations.EventsOfAStepComeInThisOrder :=
  fun _ _ h => (step_iff.1 h).stepEvents

/-- With the queue empty, beginning a step drops the last step's outputs only. -/
theorem State.begin_nil {s : State} (h : s.inputs = []) : s.begin [] = { s with events := [], replies := [] } := by
  rw [State.begin, ← h]

/-- Settles O7: the idle case of a step only begins it. -/
theorem nothingOfferedNothingHappens : Obligations.NothingOfferedNothingHappens := by
  intro s h
  rw [step_iff.2 (.idle h), State.begin_nil h]

end Sys2Proof.Machine

/-! ### What the spec leaves unspecified (spec 70_reset_and_hazards.md R221, 10_state.md R25, R30) -/

namespace Sys2Proof.Machine

/-- RESET and SYNC_RESTART close the candidate, so none of its bytes and no `expected_size` is left to agree on. -/
theorem Alike.syncRestart {s s' : State} (h : Alike s s') : Alike s.syncRestart s'.syncRestart :=
  { h with
    idx := rfl
    expectedSize := fun h2 => absurd h2 (Nat.not_succ_le_zero 1)
    bytes := fun a ha => absurd ha (Nat.not_lt_zero a) }

theorem Alike.resetOp {s s' : State} (h : Alike s s') : Alike s.resetOp s'.resetOp :=
  { h.syncRestart with
    valid := fun n => by simp [Store.get_invalidate]
    values := fun n hn => by simp [Store.get_invalidate] at hn
    fresh := rfl
    stopped := rfl }

theorem Alike.begin {s s' : State} (h : Alike s s') (rest : List Input) : Alike (s.begin rest) (s'.begin rest) :=
  { h with inputs := rfl, events := rfl, replies := rfl }

theorem Alike.offered {s s' : State} (h : Alike s s') (during : List SchedItem) (rest : List Input) :
    Alike (s.offered during rest) (s'.offered during rest) :=
  { h.begin rest with sched := rfl }

theorem Alike.raise {s s' : State} (h : Alike s s') (e : Event) : Alike (s.raise e) (s'.raise e) :=
  { h with events := congrArg (· ++ [e]) h.events }

theorem Alike.setFresh {s s' : State} (h : Alike s s') : Alike s.setFresh s'.setFresh := { h with fresh := rfl }

/-! #### Consumers and commits -/

/-- A READ answers the value of a valid slot only, and an invalid slot is invalid in both states (R30, R167). -/
theorem Alike.read_eq {s s' : State} (h : Alike s s') (n : SlotName) : s'.store.read n = s.store.read n := by
  cases hn : (s.store.get n).1 with
  | true => exact Store.read_congr (h.values n hn)
  | false => rw [Store.read_of_invalid hn, Store.read_of_invalid ((h.valid n).trans hn)]

theorem Alike.answer_eq {s s' : State} (h : Alike s s') (op : ConsumerOp) : s'.answer op = s.answer op := by
  cases op with
  | takeIfFresh => exact congrArg Reply.took h.fresh
  | read n => exact congrArg (Reply.value n) (h.read_eq n)

theorem Alike.consume {s s' : State} (h : Alike s s') (op : ConsumerOp) : Alike (s.consume op) (s'.consume op) := by
  have hr : s'.replies ++ [s'.answer op] = s.replies ++ [s.answer op] := by rw [h.replies, h.answer_eq]
  cases op with
  | takeIfFresh => exact { h with fresh := rfl, replies := hr }
  | read n => exact { h with replies := hr }

/-- A slot write replaces valid bit and value together, whatever the slot held (R30). -/
theorem Alike.writeSlot {s s' : State} (h : Alike s s') (w : SlotWrite) : Alike (s.writeSlot w) (s'.writeSlot w) :=
  { h with
    valid := fun n => by
      simp only [State.writeSlot_store, Store.get_write]
      split
      · rfl
      · exact h.valid n
    values := fun n => by
      simp only [State.writeSlot_store, Store.get_write]
      split
      · exact fun _ => rfl
      · exact h.values n }

theorem Alike.runSchedule_nil {s s' : State} (h : Alike s s') (ws : List SlotWrite) :
    Alike (runSchedule [] ws s) (runSchedule [] ws s') := by
  induction ws generalizing s s' with
  | nil => exact h
  | cons w ws ih => exact ih (h.writeSlot w)

/-- By induction on the interleaving: each slot write and each consumer operation keeps two states alike. -/
theorem Alike.runSchedule {s s' : State} (h : Alike s s') (items : List SchedItem) (ws : List SlotWrite) :
    Alike (runSchedule items ws s) (runSchedule items ws s') := by
  induction items generalizing ws s s' with
  | nil => exact h.runSchedule_nil ws
  | cons i items ih =>
    cases i with
    | consumer op => exact ih (h.consume op) ws
    | write k =>
      cases hk : ws[k]? with
      | none => rw [runSchedule_write_none hk, runSchedule_write_none hk]; exact ih h ws
      | some w => rw [runSchedule_write_some hk, runSchedule_write_some hk]; exact ih (h.writeSlot w) _

theorem Alike.commit {s s' : State} (h : Alike s s') (ws : List SlotWrite) : Alike (s.commit ws) (s'.commit ws) := by
  have hc : Alike (Machine.runSchedule s.sched ws s) (Machine.runSchedule s'.sched ws s') := h.sched ▸ h.runSchedule _ ws
  exact { hc with sched := rfl }

theorem Alike.execState {s s' : State} (h : Alike s s') (i : Instr) : Alike (execState i s) (execState i s') := by
  unfold Machine.execState
  split
  · exact (h.commit _).setFresh.raise _
  · exact (h.commit _).raise _

/-! #### The synchronizer -/

/-- The byte stored at the cursor is the same in both buffers, and those before it were. -/
theorem Alike.read_write_idx {s s' : State} (h : Alike s s') {n : Nat} (hn : s.idx.toNat = n) (b : Byte) (a : Nat)
    (ha : a < n + 1) : Memory.read (s'.buf.write n b) a = Memory.read (s.buf.write n b) a := by
  rw [Memory.read_write, Memory.read_write]
  split
  · rfl
  · exact h.bytes a (by omega)

theorem Alike.seek {s s' : State} (h : Alike s s') (h0 : s.idx = 0) (b : Byte) : Alike (s.seek b) (s'.seek b) := by
  by_cases hb : b = startMarker
  · subst hb
    rw [State.seek_marker, State.seek_marker]
    exact { h with
      idx := rfl
      expectedSize := fun h2 => absurd h2 (Nat.lt_irrefl 1)
      bytes := h.read_write_idx ((idx_eq_zero_iff s.idx).1 h0) startMarker }
  · rwa [State.seek_of_ne s hb, State.seek_of_ne s' hb]

/-- SIZE writes `expected_size` before anything reads it (R112, R221). -/
theorem Alike.size {s s' : State} (h : Alike s s') (h1 : s.idx = 1) (b : Byte) : Alike (s.size b) (s'.size b) :=
  { h with
    idx := rfl
    expectedSize := fun _ => rfl
    bytes := h.read_write_idx ((idx_eq_one_iff s.idx).1 h1) b }

theorem Alike.fill {s s' : State} (h : Alike s s') (h2 : 2 ≤ s.idx.toNat) (b : Byte) : Alike (s.fill b) (s'.fill b) :=
  { h with
    idx := congrArg (· + 1) h.idx
    expectedSize := fun _ => h.expectedSize h2
    bytes := fun a ha => by
      have hle : (s.idx + 1).toNat ≤ s.idx.toNat + 1 := Nat.mod_le _ _
      rw [State.fill_buf, State.fill_buf, h.idx]
      exact h.read_write_idx rfl b a (ha.trans_le hle) }

/-- CHECK reads the candidate only, whose bytes and `expected_size` are the same in both states. -/
theorem Alike.slice_eq {s s' : State} (h : Alike s s') (h2 : 2 ≤ s.idx.toNat) (hge : s.expectedSize.toNat ≤ s.idx.toNat) :
    s'.buf.slice 0 s'.expectedSize.toNat = s.buf.slice 0 s.expectedSize.toNat := by
  rw [h.expectedSize h2]
  refine Memory.slice_congr 0 _ fun k hk => ?_
  rw [Nat.zero_add]
  exact h.bytes k (hk.trans_le hge)

/-- The address byte belongs to a candidate in CHECK, whose N + 4 bytes are at least four. -/
theorem Alike.read_two_eq {s s' : State} (h : Alike s s') (hs : s.Inv) (h2 : 2 ≤ s.idx.toNat)
    (hge : s.expectedSize.toNat ≤ s.idx.toNat) : s'.buf.read 2 = s.buf.read 2 := by
  obtain ⟨_, _, n, _, hn⟩ := hs.candidate h2
  exact h.bytes 2 (by omega)

theorem Alike.reject {s s' : State} (h : Alike s s') (h2 : 2 ≤ s.idx.toNat) (addr : Byte) :
    Alike (s.reject addr) (s'.reject addr) :=
  { h.syncRestart with events := by rw [State.reject_events, State.reject_events, h.events, h.expectedSize h2] }

theorem Alike.handed {s s' : State} (h : Alike s s') (F : List Byte) : Alike (s.handed F) (s'.handed F) :=
  h.syncRestart.raise _

/-- A byte has the same rule in both states, and the rule keeps them alike. The invariant makes the address byte, which a
rejecting CHECK reports, one of the candidate's. -/
theorem Alike.exists_byteStep {b : Byte} {s s' t : State} (h : Alike s s') (hs : s.Inv) (hb : ByteStep b s t) :
    ∃ t', ByteStep b s' t' ∧ Alike t t' := by
  cases hb with
  | stopped hr => exact ⟨_, .stopped (h.stopped.trans hr), h.commit []⟩
  | seek hr h0 => exact ⟨_, .seek (h.stopped.trans hr) (h.idx.trans h0), (h.seek h0 b).commit []⟩
  | size hr h1 => exact ⟨_, .size (h.stopped.trans hr) (h.idx.trans h1), (h.size h1 b).commit []⟩
  | fill hr h2 hlt hc =>
    exact ⟨_, .fill (h.stopped.trans hr) (h.idx ▸ h2) (h.idx ▸ h.expectedSize h2 ▸ hlt) (h.idx ▸ hc), (h.fill h2 b).commit []⟩
  | reject hr h2 hge F hF addr ha hcrc =>
    exact ⟨_, .reject (h.stopped.trans hr) (h.idx ▸ h2) (h.idx ▸ h.expectedSize h2 ▸ hge) F ((h.slice_eq h2 hge).trans hF) addr
      ((h.read_two_eq hs h2 hge).trans ha) (h.params ▸ hcrc), (h.reject h2 addr).commit []⟩
  | accept hr h2 hge F hF addr ha hcrc i hi =>
    exact ⟨_, .accept (h.stopped.trans hr) (h.idx ▸ h2) (h.idx ▸ h.expectedSize h2 ▸ hge) F ((h.slice_eq h2 hge).trans hF) addr
      ((h.read_two_eq hs h2 hge).trans ha) (h.params ▸ hcrc) i (h.params ▸ hi), (h.handed F).execState i⟩

/-- Settles O60, one case per kind of input: what a step reads is the same in both states, and what it writes is too. -/
theorem unspecifiedValuesAreNeverSeen : Obligations.UnspecifiedValuesAreNeverSeen := by
  intro s s' t hs h hstep
  cases step_iff.1 hstep with
  | idle hi => exact ⟨_, step_iff.2 (.idle (h.inputs.trans hi)), h.begin []⟩
  | byte b during rest hi t hb =>
    obtain ⟨t', hb', ht⟩ := (h.offered during rest).exists_byteStep (hs.offered during rest) hb
    exact ⟨t', step_of_byteStep (h.inputs.trans hi) hb', ht⟩
  | reset rest hi => exact ⟨_, step_iff.2 (.reset rest (h.inputs.trans hi)), (h.begin rest).resetOp⟩
  | syncRestart rest hi => exact ⟨_, step_iff.2 (.syncRestart rest (h.inputs.trans hi)), (h.begin rest).syncRestart⟩
  | stop rest hi => exact ⟨_, step_iff.2 (.stop rest (h.inputs.trans hi)), { h.begin rest with stopped := rfl }⟩
  | consumer op rest hi => exact ⟨_, step_iff.2 (.consumer op rest (h.inputs.trans hi)), (h.begin rest).consume op⟩

end Sys2Proof.Machine

/-! ### Reset (spec 70_reset_and_hazards.md R220, R221) -/

namespace Sys2Proof.Machine

/-- Settles O1: the cursor of the reset state is 0, and its store has no valid slot. -/
theorem resetStateIsSeekWithEmptyStore : Obligations.ResetStateIsSeekWithEmptyStore :=
  ⟨State.phase_seek rfl, rfl, rfl, rfl, rfl, fun n => ⟨Store.get_empty n, Store.read_of_invalid (Store.get_empty n)⟩⟩

theorem Accessor.slots_ne_nil (a : Accessor) : a.slots ≠ [] := by cases a <;> simp [Accessor.slots]

/-- Every accessor reads a slot, so in a store without a valid slot it answers none (R168). -/
theorem Accessor.sample_eq_none {st : Store} (h : ∀ n, (st.get n).1 = false) (a : Accessor) : a.sample st = none := by
  obtain ⟨n, hn⟩ := List.exists_mem_of_ne_nil _ a.slots_ne_nil
  exact (accessorGroupIsNoneWhenASlotIsInvalid a st).1.2 ⟨n, hn, h n⟩

/-- Settles O2: RESET is one of the cases of a step, and it invalidates every slot of the store. -/
theorem resetClearsCursorFlagsAndValidBits : Obligations.ResetClearsCursorFlagsAndValidBits := by
  intro s rest hi
  have hget : ∀ n, (s.begin rest).resetOp.store.get n = (false, (s.store.get n).2) := s.store.get_invalidate
  have hvalid : ∀ n, ((s.begin rest).resetOp.store.get n).1 = false := fun n => congrArg Prod.fst (hget n)
  exact ⟨_, step_iff.2 (.reset rest hi), rfl, State.phase_seek rfl, rfl, rfl, rfl,
    fun n => ⟨hget n, Store.read_of_invalid (hvalid n)⟩, Accessor.sample_eq_none hvalid, rfl, fun _ => rfl, rfl, rfl, rfl, rfl⟩

end Sys2Proof.Machine
